-- ==== Sys2Proof/Word.lean ====
section
/-! DEFINITION. The widths the spec names (R8, R9, R31, R42) and the eleven parameter bytes of a packet (R124). -/

namespace Sys2Proof

/-- A task-file register, a packet byte, a buffer byte: 8 bits (R9, "a task-file register is 8 bits unless stated"). -/
abbrev Byte := BitVec 8

/-- One 16-bit access of the DATA port, or the byte-count pair (R24, R31). -/
abbrev Half := BitVec 16

/-- A frame address, 24 bits (R7, R9). -/
abbrev Fad := BitVec 24

/-- `b[1]` to `b[11]`, the parameter bytes of an SPI packet (R124). The opcode `b[0]` is what selects the constructor of
`Instr`; bytes no layout names are kept, because the packet accumulator shows them (R36, R142). -/
structure Params where
  b1 : Byte
  b2 : Byte
  b3 : Byte
  b4 : Byte
  b5 : Byte
  b6 : Byte
  b7 : Byte
  b8 : Byte
  b9 : Byte
  b10 : Byte
  b11 : Byte
  deriving DecidableEq, Repr

end Sys2Proof
end

