-- ==== Sys2Proof/Config.lean ====
section
/-! DEFINITION. The implementation parameters of R7 as a record, and the values the spec leaves open as constants that
nothing can evaluate. The capacities R7 fixes stand here too. -/

namespace Sys2Proof

/-- `cfg`, the parameters R7 marks "parameter" except the provider `Disc`, whose answers arrive with each operation (R106).
The machine holds it as plain data and no operation changes it (log entry 5). -/
structure Config where
  /-- Further entries of `cfg.sector_size` beyond the four mandatory rows (R283): descriptor and bytes per sector. -/
  sectorEntries : List (BitVec 7 × Nat)
  /-- `cfg.identify_block`, 80 bytes (R209). -/
  identifyBlock : List Byte
  /-- `cfg.hw_info_reset`, 32 bytes (R44). -/
  hwInfoReset : List Byte
  /-- `cfg.reg_address`, the bus address of each of the eight selectors, used by no rule (R7, R81). -/
  regAddress : List Nat
  deriving DecidableEq, Repr

/-- `PIO_CAPACITY_BYTES` (R7). -/
def pioCapacityBytes : Nat := 65536

/-- `DMA_MAX_SECTORS` (R7). -/
def dmaMaxSectors : Nat := 16

/-- `MAX_SECTOR_SIZE` (R7). -/
def maxSectorSize : Nat := 2352

/-- `DMA_CAPACITY_BYTES` (R7). -/
def dmaCapacityBytes : Nat := 37632

/-- `PACKET_BYTES` (R7). -/
def packetBytes : Nat := 12

/-- Byte `k` of the identification block, which the spec leaves open (R209): a free value (log entry 6). -/
opaque Config.identifyByte : Nat → Byte

/-- The bus address of selector `k`, which the spec leaves open (R81): a free value (log entry 6). -/
opaque Config.busAddress : Nat → Nat

/-- The `k`-th byte that a misused read returns, "a value the spec does not fix" (R350): a free value (log entry 7). -/
opaque Config.freeByte : Nat → Byte

/-- The default of `cfg.hw_info_reset` (R44): drive speed 0, standby time 0x00B4, read flags 0x19, retry count 8, then
"SE      ", "Rev 6.43" and "990408". -/
def hwInfoDefault : List Byte :=
  [0x00, 0x00, 0x00, 0x00, 0x00, 0xB4, 0x19, 0x00, 0x00, 0x08] ++
  [0x53, 0x45, 0x20, 0x20, 0x20, 0x20, 0x20, 0x20] ++
  [0x52, 0x65, 0x76, 0x20, 0x36, 0x2E, 0x34, 0x33] ++
  [0x39, 0x39, 0x30, 0x34, 0x30, 0x38]

/-- The configuration the machine has at `State.reset`: the mandatory sector sizes only, the default hardware-info block,
open identification bytes and open addresses (log entry 5). -/
def Config.default : Config :=
  { sectorEntries := []
    identifyBlock := (List.range 80).map Config.identifyByte
    hwInfoReset := hwInfoDefault
    regAddress := (List.range 8).map Config.busAddress }

end Sys2Proof
end

