-- ==== Sys2Proof/Syntax.lean ====
section
/-! DEFINITION. The operations of the hardware (R10, R146): one constructor for each of the 44 rows of spec/opcode_table.json,
in the table's order. -/

namespace Sys2Proof

/-- An operation of R10. In the register rows `n` is the access size in bytes and `v` the value written (R123, R160); a write
uses the low `8n` bits of `v`, and a size other than 1 or 2 is never applied (R97), so sixteen bits of value are enough. -/
inductive Instr where
  /-- `HostRead(DATA, n)`: R164, R165. -/
  | rData (n : Nat)
  /-- `HostRead(ERROR_FEATURES, n)`: R161. -/
  | rError (n : Nat)
  /-- `HostRead(INTREASON_SECTCOUNT, n)`: R161. -/
  | rIntreason (n : Nat)
  /-- `HostRead(SECTNUM, n)`: R161. -/
  | rSectnum (n : Nat)
  /-- `HostRead(BYTECOUNT_LOW, n)`: R161. -/
  | rBclow (n : Nat)
  /-- `HostRead(BYTECOUNT_HIGH, n)`: R161. -/
  | rBchigh (n : Nat)
  /-- `HostRead(DRIVESEL, n)`: R161. -/
  | rDrivesel (n : Nat)
  /-- `HostRead(STATUS_COMMAND, n)`: R162. -/
  | rStatus (n : Nat)
  /-- `HostWrite(DATA, n, v)`: R166, R167, R168. -/
  | wData (n : Nat) (v : Half)
  /-- `HostWrite(ERROR_FEATURES, n, v)`: R163. -/
  | wFeatures (n : Nat) (v : Half)
  /-- `HostWrite(INTREASON_SECTCOUNT, n, v)`: R163. -/
  | wSectcount (n : Nat) (v : Half)
  /-- `HostWrite(SECTNUM, n, v)`: R163, R30. -/
  | wSectnum (n : Nat) (v : Half)
  /-- `HostWrite(BYTECOUNT_LOW, n, v)`: R163. -/
  | wBclow (n : Nat) (v : Half)
  /-- `HostWrite(BYTECOUNT_HIGH, n, v)`: R163. -/
  | wBchigh (n : Nat) (v : Half)
  /-- `HostWrite(DRIVESEL, n, v)`: R163. -/
  | wDrivesel (n : Nat) (v : Half)
  /-- `HostWrite(STATUS_COMMAND, n, v)`: R169, R200. -/
  | wCommand (n : Nat) (v : Half)
  /-- ATA command 0x00: R201. -/
  | nop
  /-- ATA command 0x08: R202. -/
  | softReset
  /-- ATA command 0x90: R203. -/
  | execDiag
  /-- ATA command 0xA0: R204. -/
  | spiPacket
  /-- ATA command 0xA1: R205. -/
  | identifyDevice
  /-- ATA command 0xEC: R206. -/
  | identify
  /-- ATA command 0xEF: R207. -/
  | setFeatures
  /-- Any of the 249 other command codes (R122): R208. -/
  | ataUnknown (code : Byte)
  /-- Packet opcode 0x00: R221. -/
  | testUnit (p : Params)
  /-- Packet opcode 0x10: R223. -/
  | reqStat (p : Params)
  /-- Packet opcode 0x11: R228. -/
  | reqMode (p : Params)
  /-- Packet opcode 0x12: R232, R233. -/
  | setMode (p : Params)
  /-- Packet opcode 0x13: R236. -/
  | reqError (p : Params)
  /-- Packet opcode 0x14: R240. -/
  | getToc (p : Params)
  /-- Packet opcode 0x15: R244. -/
  | reqSes (p : Params)
  /-- Packet opcode 0x16: R265. -/
  | cdOpen (p : Params)
  /-- Packet opcode 0x20: R268, R269. -/
  | cdPlay (p : Params)
  /-- Packet opcode 0x21: R270, R272. -/
  | cdSeek (p : Params)
  /-- Packet opcode 0x22: R274. -/
  | cdScan (p : Params)
  /-- Packet opcode 0x30: R284, R286. -/
  | cdRead (p : Params)
  /-- Packet opcode 0x31: R285, R286. -/
  | cdRead2 (p : Params)
  /-- Packet opcode 0x40: R248. -/
  | getScd (p : Params)
  /-- Any of the 242 other packet opcodes (R126): R252. -/
  | spiUnrecognized (opcode : Byte) (p : Params)
  /-- `DmaAvail()`: R296. -/
  | dmaAvail
  /-- `DmaPull(len)`: R297. -/
  | dmaPull (len : Nat)
  /-- `CddaAdvance`: R312. -/
  | cddaAdvance
  /-- `TrayClose`: R266. -/
  | trayClose
  /-- `HardReset`: R370. -/
  | hardReset
  deriving DecidableEq, Repr

end Sys2Proof
end

