-- ==== Sys2Proof/WellFormed.lean ====
section
/-! DEFINITION. Which operations are well formed: the operands an operation record can carry (log entry 1) and the
codes the two catch-all rows stand for (R122, R126). -/

namespace Sys2Proof

/-- The seven ATA command codes (R120). -/
def ataCodes : List Byte := [0x00, 0x08, 0x90, 0xA0, 0xA1, 0xEC, 0xEF]

/-- The fourteen SPI opcodes (R125). -/
def spiOpcodes : List Byte :=
  [0x00, 0x10, 0x11, 0x12, 0x13, 0x14, 0x15, 0x16, 0x20, 0x21, 0x22, 0x30, 0x31, 0x40]

/-- An access moves at least one byte, and its size fits the size byte of a record. -/
def accessSizeOk (n : Nat) : Bool := decide (0 < n) && decide (n < 256)

/-- A written value has `8n` bits (R123), of which a record carries the low sixteen (log entry 1). -/
def writeOk (n : Nat) (v : Half) : Bool := accessSizeOk n && decide (v.toNat < 2 ^ (8 * n))

/-- The check: an access size a record can carry, a value of the access's width, a code or opcode that no other row
claims, and a pull length of at most 32 bits. -/
def Instr.wellFormed : Instr → Bool
  | .rData n => accessSizeOk n
  | .rError n => accessSizeOk n
  | .rIntreason n => accessSizeOk n
  | .rSectnum n => accessSizeOk n
  | .rBclow n => accessSizeOk n
  | .rBchigh n => accessSizeOk n
  | .rDrivesel n => accessSizeOk n
  | .rStatus n => accessSizeOk n
  | .wData n v => writeOk n v
  | .wFeatures n v => writeOk n v
  | .wSectcount n v => writeOk n v
  | .wSectnum n v => writeOk n v
  | .wBclow n v => writeOk n v
  | .wBchigh n v => writeOk n v
  | .wDrivesel n v => writeOk n v
  | .wCommand n v => writeOk n v
  | .nop => true
  | .softReset => true
  | .execDiag => true
  | .spiPacket => true
  | .identifyDevice => true
  | .identify => true
  | .setFeatures => true
  | .ataUnknown code => !ataCodes.contains code
  | .testUnit _ => true
  | .reqStat _ => true
  | .reqMode _ => true
  | .setMode _ => true
  | .reqError _ => true
  | .getToc _ => true
  | .reqSes _ => true
  | .cdOpen _ => true
  | .cdPlay _ => true
  | .cdSeek _ => true
  | .cdScan _ => true
  | .cdRead _ => true
  | .cdRead2 _ => true
  | .getScd _ => true
  | .spiUnrecognized opcode _ => !spiOpcodes.contains opcode
  | .dmaAvail => true
  | .dmaPull len => decide (len < 2 ^ 32)
  | .cddaAdvance => true
  | .trayClose => true
  | .hardReset => true

end Sys2Proof
end

