-- ==== Sys2Proof/Decode.lean ====
section
/-! DEFINITION. Decoding: the command code (R120, R122), the packet (R124 to R126) and the operation record in which the
model's input queue holds an operation of R10, with its encoder. The record's layout is the model's own (R123 and R145
give an operation no bits beyond the selector index, the command byte and the twelve packet bytes): log entry 1. -/

namespace Sys2Proof

/-- The rows of the ATA code table, `other` for an unknown code (R120, R122). -/
inductive AtaOp where
  | nop | softReset | execDiag | spiPacket | identifyDevice | identify | setFeatures | other
  deriving DecidableEq, Repr

/-- The rows of the SPI opcode table, `other` for an unrecognized opcode (R125, R126). -/
inductive SpiOp where
  | testUnit | reqStat | reqMode | setMode | reqError | getToc | reqSes | cdOpen | cdPlay | cdSeek | cdScan
  | cdRead | cdRead2 | getScd | other
  deriving DecidableEq, Repr

/-- Why a record is no operation. -/
inductive DecodeError where
  /-- The record has no byte. -/
  | emptyRecord
  /-- The format byte is none of the five. -/
  | unknownFormat
  /-- The register selector is above 7 (R123 numbers eight). -/
  | unknownSelector
  /-- The event number is above 4 (R145 names five). -/
  | unknownEvent
  /-- The operand bytes are too few or too many for the format. -/
  | badLength
  deriving DecidableEq, Repr

/-- The ATA code map (R120). -/
def ataOp (code : Byte) : AtaOp :=
  match code.toNat with
  | 0x00 => .nop
  | 0x08 => .softReset
  | 0x90 => .execDiag
  | 0xA0 => .spiPacket
  | 0xA1 => .identifyDevice
  | 0xEC => .identify
  | 0xEF => .setFeatures
  | _ => .other

/-- The SPI opcode map (R125). -/
def spiOp (opcode : Byte) : SpiOp :=
  match opcode.toNat with
  | 0x00 => .testUnit
  | 0x10 => .reqStat
  | 0x11 => .reqMode
  | 0x12 => .setMode
  | 0x13 => .reqError
  | 0x14 => .getToc
  | 0x15 => .reqSes
  | 0x16 => .cdOpen
  | 0x20 => .cdPlay
  | 0x21 => .cdSeek
  | 0x22 => .cdScan
  | 0x30 => .cdRead
  | 0x31 => .cdRead2
  | 0x40 => .getScd
  | _ => .other

/-- `b[1]` to `b[11]` in order. -/
def Params.toList (p : Params) : List Byte :=
  [p.b1, p.b2, p.b3, p.b4, p.b5, p.b6, p.b7, p.b8, p.b9, p.b10, p.b11]

/-- The parameter bytes of a packet `b[0] :: b[1] :: …`; a byte that is not there counts as 0. -/
def Params.ofPacket (b : List Byte) : Params :=
  { b1 := b.getD 1 0, b2 := b.getD 2 0, b3 := b.getD 3 0, b4 := b.getD 4 0, b5 := b.getD 5 0, b6 := b.getD 6 0,
    b7 := b.getD 7 0, b8 := b.getD 8 0, b9 := b.getD 9 0, b10 := b.getD 10 0, b11 := b.getD 11 0 }

/-- The ATA command a command byte stands for (R121: all eight bits are the opcode). -/
def decodeAta (code : Byte) : Instr :=
  match ataOp code with
  | .nop => .nop
  | .softReset => .softReset
  | .execDiag => .execDiag
  | .spiPacket => .spiPacket
  | .identifyDevice => .identifyDevice
  | .identify => .identify
  | .setFeatures => .setFeatures
  | .other => .ataUnknown code

/-- The packet command twelve packet bytes stand for (R124: `b[0]` is the opcode). -/
def decodePacket (opcode : Byte) (p : Params) : Instr :=
  match spiOp opcode with
  | .testUnit => .testUnit p
  | .reqStat => .reqStat p
  | .reqMode => .reqMode p
  | .setMode => .setMode p
  | .reqError => .reqError p
  | .getToc => .getToc p
  | .reqSes => .reqSes p
  | .cdOpen => .cdOpen p
  | .cdPlay => .cdPlay p
  | .cdSeek => .cdSeek p
  | .cdScan => .cdScan p
  | .cdRead => .cdRead p
  | .cdRead2 => .cdRead2 p
  | .getScd => .getScd p
  | .other => .spiUnrecognized opcode p

/-- A register read by its selector index (R123). -/
def decodeRead (sel : Byte) (n : Nat) : Except DecodeError Instr :=
  match sel.toNat with
  | 0 => .ok (.rData n)
  | 1 => .ok (.rError n)
  | 2 => .ok (.rIntreason n)
  | 3 => .ok (.rSectnum n)
  | 4 => .ok (.rBclow n)
  | 5 => .ok (.rBchigh n)
  | 6 => .ok (.rDrivesel n)
  | 7 => .ok (.rStatus n)
  | _ => .error .unknownSelector

/-- A register write by its selector index (R123). -/
def decodeWrite (sel : Byte) (n : Nat) (v : Half) : Except DecodeError Instr :=
  match sel.toNat with
  | 0 => .ok (.wData n v)
  | 1 => .ok (.wFeatures n v)
  | 2 => .ok (.wSectcount n v)
  | 3 => .ok (.wSectnum n v)
  | 4 => .ok (.wBclow n v)
  | 5 => .ok (.wBchigh n v)
  | 6 => .ok (.wDrivesel n v)
  | 7 => .ok (.wCommand n v)
  | _ => .error .unknownSelector

/-- Four bytes, least significant first. -/
def nat32 (l0 l1 l2 l3 : Byte) : Nat :=
  l0.toNat + 256 * l1.toNat + 65536 * l2.toNat + 16777216 * l3.toNat

/-- An event by its number, the table's order (R145, R146). -/
def decodeEvent (code : Byte) (operand : List Byte) : Except DecodeError Instr :=
  match code.toNat, operand with
  | 0, [] => .ok .dmaAvail
  | 1, [l0, l1, l2, l3] => .ok (.dmaPull (nat32 l0 l1 l2 l3))
  | 2, [] => .ok .cddaAdvance
  | 3, [] => .ok .trayClose
  | 4, [] => .ok .hardReset
  | 0, _ => .error .badLength
  | 1, _ => .error .badLength
  | 2, _ => .error .badLength
  | 3, _ => .error .badLength
  | 4, _ => .error .badLength
  | _, _ => .error .unknownEvent

/-- A lone byte, the short form of a record, for the table's one-byte words (log entry 2): a command code stands for its
ATA command, else an opcode for its packet with every other byte 0, else a selector for a read of the register's own size; any
other byte is an unknown command code (R122). -/
def decodeShort (code : Byte) : Except DecodeError Instr :=
  if ataCodes.contains code then .ok (decodeAta code)
  else if spiOpcodes.contains code then .ok (decodePacket code (Params.ofPacket []))
  else if code.toNat < 8 then decodeRead code 1
  else .ok (decodeAta code)

/-- The operation a record stands for: code byte, format byte, operand bytes (log entry 1). -/
def decode : List Byte → Except DecodeError Instr
  | [] => .error .emptyRecord
  | [code] => decodeShort code
  | code :: format :: operand =>
    match format.toNat, operand with
    | 1, [n] => decodeRead code n.toNat
    | 2, [n, lo, hi] => decodeWrite code n.toNat (hi ++ lo)
    | 3, [] => .ok (decodeAta code)
    | 4, [b1, b2, b3, b4, b5, b6, b7, b8, b9, b10, b11] =>
      .ok (decodePacket code ⟨b1, b2, b3, b4, b5, b6, b7, b8, b9, b10, b11⟩)
    | 5, operand => decodeEvent code operand
    | 1, _ => .error .badLength
    | 2, _ => .error .badLength
    | 3, _ => .error .badLength
    | 4, _ => .error .badLength
    | _, _ => .error .unknownFormat

/-- The low `bits / 8` bytes of `w`, least significant first, as R8 numbers its bits. -/
def bytesOfNat : Nat → Nat → List Byte
  | 0, _ => []
  | k + 1, w => BitVec.ofNat 8 w :: bytesOfNat k (w / 256)

/-- The record of a word of spec/opcode_table.json with `nbits` bits: its bytes, the lowest first (log entry 2). -/
def tableRecord (nbits w : Nat) : List Byte := bytesOfNat ((nbits + 7) / 8) w

/-- The operation the decoder reads from a word of the opcode table. -/
def decodeTableWord (nbits w : Nat) : Option Instr :=
  match decode (tableRecord nbits w) with
  | .ok i => some i
  | .error _ => none

/-- Format bytes of a record. -/
def encodeRead (sel : Byte) (n : Nat) : List Byte := [sel, 1, BitVec.ofNat 8 n]

/-- A register write's record. -/
def encodeWrite (sel : Byte) (n : Nat) (v : Half) : List Byte :=
  [sel, 2, BitVec.ofNat 8 n, v.extractLsb' 0 8, v.extractLsb' 8 8]

/-- An ATA command's record. -/
def encodeAta (code : Byte) : List Byte := [code, 3]

/-- A packet's record. -/
def encodePacket (opcode : Byte) (p : Params) : List Byte := opcode :: 4 :: p.toList

/-- An event's record. -/
def encodeEvent (code : Byte) (operand : List Byte) : List Byte := code :: 5 :: operand

/-- The record of an operation, from the same tables: R120, R123, R125, R146. -/
def encode : Instr → List Byte
  | .rData n => encodeRead 0 n
  | .rError n => encodeRead 1 n
  | .rIntreason n => encodeRead 2 n
  | .rSectnum n => encodeRead 3 n
  | .rBclow n => encodeRead 4 n
  | .rBchigh n => encodeRead 5 n
  | .rDrivesel n => encodeRead 6 n
  | .rStatus n => encodeRead 7 n
  | .wData n v => encodeWrite 0 n v
  | .wFeatures n v => encodeWrite 1 n v
  | .wSectcount n v => encodeWrite 2 n v
  | .wSectnum n v => encodeWrite 3 n v
  | .wBclow n v => encodeWrite 4 n v
  | .wBchigh n v => encodeWrite 5 n v
  | .wDrivesel n v => encodeWrite 6 n v
  | .wCommand n v => encodeWrite 7 n v
  | .nop => encodeAta 0x00
  | .softReset => encodeAta 0x08
  | .execDiag => encodeAta 0x90
  | .spiPacket => encodeAta 0xA0
  | .identifyDevice => encodeAta 0xA1
  | .identify => encodeAta 0xEC
  | .setFeatures => encodeAta 0xEF
  | .ataUnknown code => encodeAta code
  | .testUnit p => encodePacket 0x00 p
  | .reqStat p => encodePacket 0x10 p
  | .reqMode p => encodePacket 0x11 p
  | .setMode p => encodePacket 0x12 p
  | .reqError p => encodePacket 0x13 p
  | .getToc p => encodePacket 0x14 p
  | .reqSes p => encodePacket 0x15 p
  | .cdOpen p => encodePacket 0x16 p
  | .cdPlay p => encodePacket 0x20 p
  | .cdSeek p => encodePacket 0x21 p
  | .cdScan p => encodePacket 0x22 p
  | .cdRead p => encodePacket 0x30 p
  | .cdRead2 p => encodePacket 0x31 p
  | .getScd p => encodePacket 0x40 p
  | .spiUnrecognized opcode p => encodePacket opcode p
  | .dmaAvail => encodeEvent 0 []
  | .dmaPull len => encodeEvent 1 (bytesOfNat 4 len)
  | .cddaAdvance => encodeEvent 2 []
  | .trayClose => encodeEvent 3 []
  | .hardReset => encodeEvent 4 []

end Sys2Proof
end

