-- ==== Sys2Proof/Machine/State.lean ====
section
/-! DEFINITION. The state of the controller (R20 to R48), field by field, with the fields the model adds around it, and
the state after reset (R50, R370). -/

namespace Sys2Proof.Machine

open Sys2Proof

/-- `gd_states`, the controller state that plays the part of a program counter (R21). -/
inductive GdState where
  /-- Idle; an ATA command may be written. -/
  | waitcmd
  /-- The packet command was accepted; packet bytes are awaited. -/
  | waitpacket
  /-- Transient: the packet processor is dispatching. -/
  | procpacket
  /-- Data phase, device to host. -/
  | pioSendData
  /-- Data phase, host to device. -/
  | pioGetData
  /-- Transient: a PIO data phase has drained. -/
  | pioEnd
  /-- Transient: final status is being posted. -/
  | procpacketdone
  /-- Transient: sector read engine, PIO path. -/
  | readsectorPio
  /-- Sector read engine, DMA path. -/
  | readsectorDma
  /-- Transient: the SET_MODE block is being checked and stored. -/
  | processSetMode
  deriving DecidableEq, Repr

/-- The CDDA status (R42). -/
inductive CddaStatus where
  | noInfo | playing | paused | terminated
  deriving DecidableEq, Repr

/-- The scan flag (R42). -/
inductive Scan where
  | none | forward | reverse
  deriving DecidableEq, Repr

/-- The kinds of `raise(kind)` (R340). -/
inductive IrqKind where
  | dataRequest | complete | error
  deriving DecidableEq, Repr

/-- The reasons of `misuse(reason)`: the table of R350. -/
inductive Misuse where
  | commandWhileBusy | dataReadNoPhase | dataWriteNoPhase | packetOverrun | badAccessSize | pioLimitTooSmall
  | dmaPullNoPhase | dmaReadPastEnd | pioOverCapacity | pioReadPastEnd | pioWritePastEnd | dmaFillNotEmpty
  deriving DecidableEq, Repr

/-- The one reason of `refuse(reason)` (R351). -/
inductive RefuseReason where
  | unspecifiedSectorSelection
  deriving DecidableEq, Repr

/-- The storage of a buffer: (address, byte) pairs with rising addresses, an unlisted address reading 0, which is what
R40 and R41 say the data hold after a hard reset. -/
abbrev Memory := List Host.Cell

/-- `S.packet` (R36): the bytes `b[0..11]` and how many the host has written. -/
structure Packet where
  b : List Byte
  index : Nat
  deriving DecidableEq, Repr

/-- `S.read_params` (R37). -/
structure ReadParams where
  startSector : Nat
  remaining : Nat
  sectorType : BitVec 7
  deriving DecidableEq, Repr

/-- `S.pio` (R40): 32768 words held as their 65536 bytes, the low byte of word `i` at address `2i`; `cursor` and `size`
count words. -/
structure PioBuffer where
  data : Memory
  cursor : Nat
  size : Nat
  nextState : GdState
  deriving DecidableEq, Repr

/-- `S.dma` (R41): 37632 bytes; `cursor` and `size` count bytes. -/
structure DmaBuffer where
  data : Memory
  cursor : Nat
  size : Nat
  deriving DecidableEq, Repr

/-- `S.cdda` (R42). -/
structure Cdda where
  status : CddaStatus
  repeats : BitVec 4
  current : Fad
  last : Fad
  start : Fad
  scan : Scan
  deriving DecidableEq, Repr

/-- `S.sense` (R43). -/
structure Sense where
  key : BitVec 4
  asc : Byte
  ascq : Byte
  deriving DecidableEq, Repr

/-- `S.set_mode` (R45). -/
structure SetModeLatch where
  offset : Byte
  length : Byte
  deriving DecidableEq, Repr

/-- A track or the lead-out of a TOC (R101). -/
structure Track where
  fad : Fad
  ctrl : BitVec 4
  adr : BitVec 4
  deriving DecidableEq, Repr

/-- A session of a TOC (R101). -/
structure Session where
  firstTrack : Byte
  startFad : Fad
  deriving DecidableEq, Repr

/-- The TOC record (R101). `tracks` lists `track[first_track]` onward; whether the record keeps the constraints of R101
is a check of its own. -/
structure Toc where
  discFormat : BitVec 4
  firstTrack : Byte
  lastTrack : Byte
  tracks : List Track
  leadout : Track
  sessions : List Session
  deriving DecidableEq, Repr

/-- What the disc-image provider answers to the queries of one operation (R100, R106), an input of that operation: its first and its later
answer to `isDiscPresent`, its answer to `getTOC` and to `readSectors`, `none` for `error`. No operation of the spec asks
either of the last two more than once, or the first more than twice (log entry 4). -/
structure Answers where
  present : Bool
  presentAgain : Bool
  toc : Option Toc
  sectors : Option (List Byte)
  deriving DecidableEq, Repr

/-- A query of the provider with its arguments (R100). -/
inductive Query where
  | isDiscPresent
  | getTOC
  | readSectors (start count : Nat) (sectorType : BitVec 7)
  deriving DecidableEq, Repr

/-- What an operation returns to its agent: a register byte, a DATA word, a byte sequence (`DmaPull`, or a misused read of
another size), a byte count (`DmaAvail`). -/
inductive Returned where
  | byte (v : Byte)
  | word (v : Half)
  | bytes (v : List Byte)
  | count (n : Nat)
  deriving DecidableEq, Repr

/-- What an observer sees of one operation (R391), except the level `S.intrq`, which is a field of its own. -/
structure Observation where
  returned : Option Returned
  irqs : List IrqKind
  queries : List Query
  deriving DecidableEq, Repr

/-- An operation waiting to be applied: its record and the provider's answers to the queries it will make. -/
structure Input where
  record : List Byte
  answers : Answers
  deriving DecidableEq, Repr

/-- The controller state `S` (R20) and, after it, the model's own fields. -/
structure State where
  /-- `S.state` (R21). -/
  state : GdState
  /-- `S.status` (R25). -/
  status : Byte
  /-- `S.error` (R26). -/
  error : Byte
  /-- `S.features` (R27). -/
  features : Byte
  /-- `S.int_reason` (R28). -/
  intReason : Byte
  /-- `S.sect_count` (R29). -/
  sectCount : Byte
  /-- `S.sect_num` (R30). -/
  sectNum : Byte
  /-- `S.byte_count` (R31). -/
  byteCount : Half
  /-- `S.drive_sel` (R32). -/
  driveSel : Byte
  /-- `S.intrq` (R35). -/
  intrq : Bool
  /-- `S.packet` (R36). -/
  packet : Packet
  /-- `S.read_params` (R37). -/
  readParams : ReadParams
  /-- `S.pio_limit` (R38). -/
  pioLimit : Half
  /-- `S.dma_enable` (R39). -/
  dmaEnable : Bool
  /-- `S.transfer_mode` (R39). -/
  transferMode : Byte
  /-- `S.pio` (R40). -/
  pio : PioBuffer
  /-- `S.dma` (R41). -/
  dma : DmaBuffer
  /-- `S.cdda` (R42). -/
  cdda : Cdda
  /-- `S.sense` (R43). -/
  sense : Sense
  /-- `S.hw_info`, 32 bytes (R44). -/
  hwInfo : List Byte
  /-- `S.set_mode` (R45). -/
  setMode : SetModeLatch
  /-- `S.toc_cache` (R46). -/
  tocCache : Option Toc
  /-- `S.tray_open` (R47). -/
  trayOpen : Bool
  /-- `S.misuse` (R48). -/
  misuse : Option Misuse
  /-- `S.refused` (R48). -/
  refused : Option RefuseReason
  /-- The model's own: `cfg` (R7), which no operation changes (log entry 5). -/
  cfg : Config
  /-- The model's own: the provider's answers to the operation being applied (R106, log entry 4). -/
  answers : Answers
  /-- The model's own: what the operation has shown so far (R391, log entry 8). -/
  obs : Observation
  /-- The model's own: how many free bytes misused reads have returned (R350, log entry 7). -/
  freeCount : Nat
  /-- The model's own: the operations the agents have yet to apply, oldest first (R110, log entry 3). -/
  inbox : List Input
  deriving DecidableEq, Repr

/-- Where the machine stops. -/
inductive Fault where
  /-- Raised by every operation but `HardReset` once `S.misuse` is set. Safe: R350 gives such an operation no meaning. -/
  | afterMisuse (reason : Misuse)
  /-- Raised by every operation but `HardReset` once `S.refused` is set. Safe: R351 gives such an operation no meaning. -/
  | afterRefusal (reason : RefuseReason)
  deriving DecidableEq, Repr

/-- What the model gives no meaning. -/
inductive Refusal where
  /-- Raised by `exec` for an instruction that has no meaning yet; no arm does so now. Safe: nothing is claimed. -/
  | notModelled (mnemonic : String)
  /-- Raised by `step` when the oldest input's record is no operation of R10, for the reason `why`. Safe: no agent of the
  hardware can apply such a thing; the record format is the model's own (log entry 1). -/
  | malformedRecord (why : DecodeError)
  deriving DecidableEq, Repr

/-- Why an operation is not applied (R350, R351). -/
inductive HaltReason where
  | misuse (reason : Misuse)
  | refuse (reason : RefuseReason)
  deriving DecidableEq, Repr

/-- An operation that is not applied, with the provider queries it made before that was found (R391, log entry 9). -/
structure Halt where
  why : HaltReason
  asked : List Query
  deriving DecidableEq, Repr

/-- The outcome of an operation. -/
abbrev Result := Host.Outcome State Fault Refusal

/-- A procedure of the spec that may end in `misuse` or `refuse`. -/
abbrev Act := State → Except Halt State

/-- No operation has shown anything. -/
def Observation.empty : Observation := { returned := none, irqs := [], queries := [] }

/-- A provider with no disc (the `NO_DISC` of spec/95_test_vectors.md). -/
def Answers.noDisc : Answers := { present := false, presentAgain := false, toc := none, sectors := none }

/-- The machine right after `HardReset` (R50, R370) with an empty drive (log entry 10): unit status NODISC. -/
def State.reset : State :=
  { state := .waitcmd
    status := 0x40
    error := 0x00
    features := 0x00
    intReason := 0x00
    sectCount := 0x00
    sectNum := 0x07
    byteCount := 0x0000
    driveSel := 0x00
    intrq := false
    packet := { b := [0, 0, 0, 0, 0, 0, 0, 0, 0, 0, 0, 0], index := 0 }
    readParams := { startSector := 0, remaining := 0, sectorType := 0 }
    pioLimit := 0
    dmaEnable := false
    transferMode := 0x00
    pio := { data := [], cursor := 0, size := 0, nextState := .pioEnd }
    dma := { data := [], cursor := 0, size := 0 }
    cdda := { status := .noInfo, repeats := 0, current := 150, last := 150, start := 150, scan := .none }
    sense := { key := 0, asc := 0, ascq := 0 }
    hwInfo := hwInfoDefault
    setMode := { offset := 0, length := 0 }
    tocCache := none
    trayOpen := false
    misuse := none
    refused := none
    cfg := Config.default
    answers := Answers.noDisc
    obs := Observation.empty
    freeCount := 0
    inbox := [] }

end Sys2Proof.Machine
end

