-- ==== Sys2Proof/Machine/Flags.lean ====
section
/-! DEFINITION. The condition bits (R25, R26, R28, R34) and the two fields of the sector-number register (R30). -/

namespace Sys2Proof.Machine

open Sys2Proof

/-- `w` with bit `i` set to `v`. -/
def putBit (w : Byte) (i : Nat) (v : Bool) : Byte :=
  if v then w ||| (1#8 <<< i) else w &&& ~~~(1#8 <<< i)

/-- CHECK is bit 0 of the status register (R25). -/
def checkBit : Nat := 0
/-- DRQ is bit 3 of the status register (R25). -/
def drqBit : Nat := 3
/-- DSC is bit 4 of the status register (R25). -/
def dscBit : Nat := 4
/-- DRDY is bit 6 of the status register (R25). -/
def drdyBit : Nat := 6
/-- BSY is bit 7 of the status register (R25). -/
def bsyBit : Nat := 7
/-- CoD is bit 0 of the interrupt reason (R28). -/
def codBit : Nat := 0
/-- IO is bit 1 of the interrupt reason (R28). -/
def ioBit : Nat := 1

/-- `S.status.CHECK`. -/
def State.check (s : State) : Bool := s.status.getLsbD checkBit
/-- `S.status.DRQ`. -/
def State.drq (s : State) : Bool := s.status.getLsbD drqBit
/-- `S.status.DSC`. -/
def State.dsc (s : State) : Bool := s.status.getLsbD dscBit
/-- `S.status.DRDY`. -/
def State.drdy (s : State) : Bool := s.status.getLsbD drdyBit
/-- `S.status.BSY`. -/
def State.bsy (s : State) : Bool := s.status.getLsbD bsyBit
/-- `S.int_reason.CoD`. -/
def State.cod (s : State) : Bool := s.intReason.getLsbD codBit
/-- `S.int_reason.IO`. -/
def State.io (s : State) : Bool := s.intReason.getLsbD ioBit

/-- `S.status.<bit> <- v`. -/
def State.putStatus (s : State) (i : Nat) (v : Bool) : State := { s with status := putBit s.status i v }

/-- `S.int_reason.CoD <- cod; S.int_reason.IO <- io`. -/
def State.putReason (s : State) (cod io : Bool) : State :=
  { s with intReason := putBit (putBit s.intReason codBit cod) ioBit io }

/-- The error-register bit a failure sets (R345). -/
inductive ErrorBit where
  | ili | abrt | none
  deriving DecidableEq, Repr

/-- The whole error register of a failure: the key in the sense nibble, ABRT (bit 2) or ILI (bit 0) or neither (R26, R345). -/
def errorValue (key : BitVec 4) (bit : ErrorBit) : Byte :=
  key ++ (match bit with
    | .abrt => 0x4#4
    | .ili => 0x1#4
    | .none => 0x0#4)

/-- `S.sect_num.Status`, bits 3:0 (R30). -/
def State.unitStatus (s : State) : BitVec 4 := s.sectNum.extractLsb' 0 4
/-- `S.sect_num.DiscFormat`, bits 7:4 (R30). -/
def State.discFormat (s : State) : BitVec 4 := s.sectNum.extractLsb' 4 4

/-- Unit status PAUSE (R30). -/
def unitPause : BitVec 4 := 1
/-- Unit status STANDBY (R30). -/
def unitStandby : BitVec 4 := 2
/-- Unit status PLAY (R30). -/
def unitPlay : BitVec 4 := 3
/-- Unit status SCAN (R30). -/
def unitScan : BitVec 4 := 5
/-- Unit status OPEN (R30). -/
def unitOpen : BitVec 4 := 6
/-- Unit status NODISC (R30). -/
def unitNoDisc : BitVec 4 := 7

/-- `S.sect_num.Status <- v`. -/
def State.putUnit (s : State) (v : BitVec 4) : State :=
  { s with sectNum := s.sectNum.extractLsb' 4 4 ++ v }

/-- `S.sect_num.DiscFormat <- v`. -/
def State.putDiscFormat (s : State) (v : BitVec 4) : State :=
  { s with sectNum := v ++ s.sectNum.extractLsb' 0 4 }

/-- The number of a `gd_states` value in a 4-bit state register (R23); no rule reads it. -/
def GdState.number : GdState → BitVec 4
  | .waitcmd => 0
  | .waitpacket => 2
  | .procpacket => 3
  | .pioSendData => 4
  | .pioGetData => 5
  | .pioEnd => 6
  | .procpacketdone => 7
  | .readsectorPio => 8
  | .readsectorDma => 9
  | .processSetMode => 10

/-- The stable states, in which an operation can end (R22). -/
def GdState.stable : GdState → Bool
  | .waitcmd => true
  | .waitpacket => true
  | .procpacket => false
  | .pioSendData => true
  | .pioGetData => true
  | .pioEnd => false
  | .procpacketdone => false
  | .readsectorPio => false
  | .readsectorDma => true
  | .processSetMode => false

/-- The snapshot number of a CDDA status (R42). -/
def CddaStatus.number : CddaStatus → Nat
  | .noInfo => 0
  | .playing => 1
  | .paused => 2
  | .terminated => 3

end Sys2Proof.Machine
end

