-- ==== Sys2Proof/Machine/Operands.lean ====
section
/-! DEFINITION. Operands: packet fields (R127 to R141), the task-file operands of SET_FEATURES (R207), sector sizes (R283),
the TOC record's constraints and queries (R101, R105), and the responses' byte layouts (R224, R236, R241, R244, R248). -/

namespace Sys2Proof.Machine

open Sys2Proof

/-! ## Field assembly (R131) -/

/-- `be16(b0, b1)`. -/
def be16 (b0 b1 : Byte) : Half := b0 ++ b1

/-- `be24(b0, b1, b2)`. -/
def be24 (b0 b1 b2 : Byte) : Fad := b0 ++ b1 ++ b2

/-- `msf_to_fad(m, s, f)`; the result is below 2^24 for every input. -/
def msfToFad (m s f : Byte) : Fad := BitVec.ofNat 24 ((m.toNat * 60 + s.toNat) * 75 + f.toNat)

/-- `packet_fad` of three position bytes. -/
def packetFad (isMsf : Bool) (b0 b1 b2 : Byte) : Fad := if isMsf then msfToFad b0 b1 b2 else be24 b0 b1 b2

/-- The three bytes of a FAD, most significant first. -/
def fadBytes (f : Fad) : List Byte := [f.extractLsb' 16 8, f.extractLsb' 8 8, f.extractLsb' 0 8]

end Sys2Proof.Machine

namespace Sys2Proof

/-! ## Packet fields (R127 to R141) -/

/-- Starting offset of REQ_STAT, REQ_MODE and SET_MODE: `b[2]` (R128 to R130). -/
def Params.offset (p : Params) : Byte := p.b2

/-- The one-byte length of REQ_STAT, REQ_MODE, SET_MODE, REQ_ERROR and REQ_SES: `b[4]` (R128 to R134). -/
def Params.alloc8 (p : Params) : Byte := p.b4

/-- The allocation length of GET_TOC and GET_SCD: `be16(b[3], b[4])` (R133, R141). -/
def Params.alloc16 (p : Params) : Half := Machine.be16 p.b3 p.b4

/-- The session number of REQ_SES: `b[2]` (R134). -/
def Params.session (p : Params) : Byte := p.b2

/-- The parameter type of CD_PLAY, CD_SEEK and CD_SCAN: `b[1][2:0]` (R136 to R138). -/
def Params.ptype (p : Params) : BitVec 3 := p.b1.extractLsb' 0 3

/-- The repeat count of CD_PLAY: `b[6][3:0]` (R136). -/
def Params.repeats (p : Params) : BitVec 4 := p.b6.extractLsb' 0 4

/-- The direction of CD_SCAN: `b[1][3]`, true for reverse (R138). -/
def Params.reverse (p : Params) : Bool := p.b1.getLsbD 3

/-- The first position of a positioning command: `packet_fad(ptype = 2, 2)` (R268, R270, R274). -/
def Params.position (p : Params) : Fad := Machine.packetFad (p.ptype == 2) p.b2 p.b3 p.b4

/-- The end position of CD_PLAY: `packet_fad(ptype = 2, 8)` (R268). -/
def Params.endPosition (p : Params) : Fad := Machine.packetFad (p.ptype == 2) p.b8 p.b9 p.b10

/-- The sector-type descriptor of CD_READ and CD_READ2: `b[1][7:1]` (R282). -/
def Params.sectorType (p : Params) : BitVec 7 := p.b1.extractLsb' 1 7

/-- The start of a sector read: `packet_fad(b[1][0] = 1, 2)` (R139, R286). -/
def Params.readStart (p : Params) : Fad := Machine.packetFad (p.b1.getLsbD 0) p.b2 p.b3 p.b4

/-- The sector count of CD_READ: `be24(b[8], b[9], b[10])` (R139). -/
def Params.count24 (p : Params) : Fad := Machine.be24 p.b8 p.b9 p.b10

/-- The sector count of CD_READ2: `be16(b[6], b[7])` (R140). -/
def Params.count16 (p : Params) : Half := Machine.be16 p.b6 p.b7

/-- The data format of GET_SCD: `b[1][3:0]` (R141). -/
def Params.format (p : Params) : BitVec 4 := p.b1.extractLsb' 0 4

end Sys2Proof

namespace Sys2Proof.Machine

open Sys2Proof

/-! ## Task-file operands (R27, R29, R207) -/

/-- Is the pair in FEATURES and SECTCOUNT one SET_FEATURES accepts (R207)? -/
def featurePairValid (features sectCount : Byte) : Bool :=
  let fn := features.extractLsb' 0 7
  let val := features.getLsbD 7
  let tm := sectCount.extractLsb' 3 5
  let mv := sectCount.extractLsb' 0 3
  fn == 3 && !val && ((tm == 0 && mv.extractLsb' 1 2 == 0) || tm == 1 || tm == 2 || tm == 4)

/-- Is the transfer mode in SECTCOUNT a DMA mode (R207)? -/
def dmaModeSelected (sectCount : Byte) : Bool :=
  let tm := sectCount.extractLsb' 3 5
  tm == 2 || tm == 4

/-! ## Sector sizes (R283) -/

/-- The mandatory entries of `cfg.sector_size` (R283). -/
def mandatorySectorSize (st : BitVec 7) : Option Nat :=
  match st.toNat with
  | 0x12 => some 2048
  | 0x14 => some 2048
  | 0x15 => some 2324
  | 0x78 => some 2352
  | 0x79 => some 2352
  | 0x7A => some 2352
  | 0x7B => some 2352
  | 0x7C => some 2352
  | 0x7D => some 2352
  | 0x7E => some 2352
  | _ => none

/-- Does a configured size keep R283's constraint: even and in 2..2352? -/
def sectorSizeOk (size : Nat) : Bool := decide (2 ≤ size) && decide (size ≤ maxSectorSize) && size % 2 == 0

/-- The first further entry for `st` that keeps the constraint. -/
def furtherSectorSize (st : BitVec 7) : List (BitVec 7 × Nat) → Option Nat
  | [] => none
  | (k, size) :: rest => if k = st ∧ sectorSizeOk size = true then some size else furtherSectorSize st rest

/-- `cfg.sector_size(st)` (R283): the mandatory entries, then the configuration's further ones. -/
def sectorSize (c : Config) (st : BitVec 7) : Option Nat :=
  match mandatorySectorSize st with
  | some size => some size
  | none => furtherSectorSize st c.sectorEntries

/-! ## The TOC (R101, R105) -/

/-- Each FAD of the list is above `f` and above the one before it. -/
def fadsRise (f : Fad) : List Track → Bool
  | [] => true
  | t :: rest => decide (f.toNat < t.fad.toNat) && fadsRise t.fad rest

/-- Is the value a DiscFormat code of R30: CD-DA, CD-ROM, CD-ROM XA, CD-I or GD-ROM? -/
def discFormatOk (f : BitVec 4) : Bool := f == 0 || f == 1 || f == 2 || f == 3 || f == 8

/-- The constraints of R101: a DiscFormat code (that another value is malformed is log entry 16), track numbers 1..99 in
order, one entry per track, rising frame addresses with the lead-out above the last, 1..99 sessions whose first tracks are
1..99. -/
def tocValid (t : Toc) : Bool :=
  discFormatOk t.discFormat &&
  decide (1 ≤ t.firstTrack.toNat) && decide (t.firstTrack.toNat ≤ t.lastTrack.toNat) && decide (t.lastTrack.toNat ≤ 99) &&
  t.tracks.length == t.lastTrack.toNat + 1 - t.firstTrack.toNat &&
  (match t.tracks with
    | [] => false
    | first :: rest => fadsRise first.fad (rest ++ [t.leadout])) &&
  decide (1 ≤ t.sessions.length) && decide (t.sessions.length ≤ 99) &&
  t.sessions.all (fun e => decide (1 ≤ e.firstTrack.toNat) && decide (e.firstTrack.toNat ≤ 99))

/-- The last entry of `tracks`, numbered from `n`, whose FAD is at most `fad`. -/
def lastAtMost (fad : Fad) : Nat → List Track → Option (Nat × Track)
  | _, [] => none
  | n, e :: rest =>
    match lastAtMost fad (n + 1) rest with
    | some found => some found
    | none => if e.fad.toNat ≤ fad.toNat then some (n, e) else none

/-- `track_at(toc, fad)` with the track's own entry (R105). -/
def trackAt (t : Toc) (fad : Fad) : Option (Nat × Track) :=
  if t.leadout.fad.toNat ≤ fad.toNat then none else lastAtMost fad t.firstTrack.toNat t.tracks

/-- `track[k]` for `first_track ≤ k ≤ last_track`. -/
def trackEntry (t : Toc) (k : Nat) : Option Track :=
  if t.firstTrack.toNat ≤ k ∧ k ≤ t.lastTrack.toNat then t.tracks[k - t.firstTrack.toNat]? else none

/-- `(ctrl << 4) | adr`. -/
def ctrlAdr (e : Track) : Byte := e.ctrl ++ e.adr

/-- The control and address byte of a track that may be none: 0x00 for none (R224, R248). -/
def ctrlAdrOr0 (t : Option (Nat × Track)) : Byte :=
  match t with
  | some found => ctrlAdr found.2
  | none => 0x00

/-- The track number byte, 0x00 for none. -/
def trackByte (t : Option (Nat × Track)) : Byte :=
  match t with
  | some found => BitVec.ofNat 8 found.1
  | none => 0x00

/-- The index byte: 0x01 with a track, 0x00 without. -/
def indexByte (t : Option (Nat × Track)) : Byte :=
  match t with
  | some _ => 0x01
  | none => 0x00

/-- `track_at` of a TOC that may be none. -/
def trackOf (toc : Option Toc) (fad : Fad) : Option (Nat × Track) :=
  match toc with
  | some t => trackAt t fad
  | none => none

/-! ## Response layouts -/

/-- `block[off : off + len]`, clipped to the block (R9, R222). -/
def window (block : List Byte) (off len : Nat) : List Byte := (block.drop off).take len

/-- `stat_block()` (R224), from the TOC the query gave, if any, and the state after that query. -/
def statBlock (toc : Option Toc) (s : State) : List Byte :=
  let t := trackOf toc s.cdda.current
  [s.unitStatus.setWidth 8, s.discFormat ++ s.cdda.repeats, ctrlAdrOr0 t, trackByte t, indexByte t] ++
  fadBytes s.cdda.current ++ [s.hwInfo.getD 9 0, 0x00]

/-- The sense block of REQ_ERROR (R236). -/
def senseBlock (e : Sense) : List Byte :=
  [0xF0, 0x00, e.key.setWidth 8, 0x00, 0x00, 0x00, 0x00, 0x00, e.asc, e.ascq]

/-- The four bytes of a track in the TOC response, 0xFF for a track the disc does not have (R241). -/
def tocTrackBytes (t : Toc) (k : Nat) : List Byte :=
  match trackEntry t k with
  | some e => ctrlAdr e :: fadBytes e.fad
  | none => [0xFF, 0xFF, 0xFF, 0xFF]

/-- The entry of the first or the last track (R241). -/
def tocEndBytes (t : Toc) (number : Byte) : List Byte :=
  [ctrlAdrOr0 ((trackEntry t number.toNat).map (fun e => (number.toNat, e))), number, 0x00, 0x00]

/-- `toc_bytes(toc)`, 408 bytes (R241). -/
def tocBytes (t : Toc) : List Byte :=
  (List.range 99).flatMap (fun k => tocTrackBytes t (k + 1)) ++ tocEndBytes t t.firstTrack ++ tocEndBytes t t.lastTrack ++
  (ctrlAdr t.leadout :: fadBytes t.leadout.fad)

/-- The session block of REQ_SES for session `k` of a TOC with at least `k` sessions, 0 for the whole disc (R244). -/
def sessionBlock (t : Toc) (k : Nat) (unit : BitVec 4) : List Byte :=
  match k with
  | 0 => [unit.setWidth 8, 0x00, BitVec.ofNat 8 t.sessions.length] ++ fadBytes t.leadout.fad
  | j + 1 =>
    match t.sessions[j]? with
    | some e => [unit.setWidth 8, 0x00, e.firstTrack] ++ fadBytes e.startFad
    | none => []

/-- The audio status code of GET_SCD (R248). -/
def audioStatus : CddaStatus → Byte
  | .playing => 0x11
  | .paused => 0x12
  | .terminated => 0x13
  | .noInfo => 0x15

/-- The FAD relative to the start of the current track, 0 without one (R248). -/
def relativeFad (t : Option (Nat × Track)) (fad : Fad) : Fad :=
  match t with
  | some found => fad - found.2.fad
  | none => 0

/-- The position block of GET_SCD (R248). -/
def positionBlock (toc : Option Toc) (c : Cdda) : List Byte :=
  let t := trackOf toc c.current
  [0x00, audioStatus c.status, 0x00, 0x0E, ctrlAdrOr0 t, trackByte t, indexByte t] ++ fadBytes (relativeFad t c.current) ++
  (0x00 :: fadBytes c.current)

/-- The bytes of the hardware-info block that SET_MODE writes (R44, R233). -/
def modeByteWritable (i : Nat) : Bool := i == 2 || i == 4 || i == 5 || i == 6 || i == 9

end Sys2Proof.Machine
end

