-- ==== Sys2Proof/Machine/Ops.lean ====
section
/-! DEFINITION. The named operations over the state: buffer storage, misuse and refusal, the provider's queries, the two
buffers (R82 to R94), interrupts, the entry procedures of the states (R171 to R177), the failure procedure (R345), the collection
of the error (R346), and both resets (R370, R371). -/

namespace Sys2Proof.Machine

open Sys2Proof

/-! ## Buffer storage -/

/-- The byte at an address; 0 where nothing is listed (R40, R41). -/
def Memory.read : Memory → Nat → Byte
  | [], _ => 0
  | (k, x) :: rest, a => if k = a then x else Memory.read rest a

/-- Store one byte, keeping the canonical form. -/
def Memory.write : Memory → Nat → Byte → Memory
  | [], a, v => if v = 0 then [] else [(a, v)]
  | (k, x) :: rest, a, v =>
    if a < k then (if v = 0 then (k, x) :: rest else (a, v) :: (k, x) :: rest)
    else if a = k then (if v = 0 then rest else (a, v) :: rest)
    else (k, x) :: Memory.write rest a v

/-- The cells of a byte sequence laid from address `a` on. -/
def Memory.cells : Nat → List Byte → Memory
  | _, [] => []
  | a, b :: rest => if b = 0 then Memory.cells (a + 1) rest else (a, b) :: Memory.cells (a + 1) rest

/-- `data[0 .. length) <- bytes`: the bytes above stay. -/
def Memory.load (m : Memory) (bytes : List Byte) : Memory :=
  Memory.cells 0 bytes ++ m.filter (fun c => decide (bytes.length ≤ c.1))

/-- The `n` bytes from address `a` on. -/
def Memory.slice (m : Memory) (a n : Nat) : List Byte := (List.range n).map (fun i => Memory.read m (a + i))

/-- The canonical form: rising addresses, no listed 0. -/
abbrev Memory.wf (m : Memory) : Prop := m.Pairwise (fun c d => c.1 < d.1) ∧ ∀ c ∈ m, c.2 ≠ 0

/-- Every listed address is below a capacity. -/
abbrev Memory.below (m : Memory) (cap : Nat) : Prop := ∀ c ∈ m, c.1 < cap

/-! ## Misuse and refusal (R350, R351) -/

/-- The operation is out of contract: it will not be applied. -/
def misused {α : Type} (r : Misuse) (s : State) : Except Halt α := .error { why := .misuse r, asked := s.obs.queries }

/-- The spec has no rule for the operation: it will not be applied. -/
def refusedFor {α : Type} (r : RefuseReason) (s : State) : Except Halt α :=
  .error { why := .refuse r, asked := s.obs.queries }

/-- What is left of an operation that is not applied: the state before it, with the first reason recorded, and the provider
queries it had made. -/
def recordHalt (h : Halt) (s : State) : State :=
  match h.why with
  | .misuse r => { s with misuse := (match s.misuse with | none => some r | some q => some q)
                          obs := { s.obs with queries := h.asked } }
  | .refuse r => { s with refused := (match s.refused with | none => some r | some q => some q)
                          obs := { s.obs with queries := h.asked } }

/-- The outcome of an operation on `s` from what its procedure gives: applied whole, or not at all with the reason recorded. -/
def applied (s : State) (r : Except Halt State) : Result :=
  match r with
  | .ok t => .next t
  | .error h => .next (recordHalt h s)

/-- Once a misuse or a refusal is recorded the spec gives an operation no meaning (R350, R351); `HardReset` alone does not
ask this. -/
def whileLive (s : State) (k : Result) : Result :=
  match s.misuse with
  | some r => .fault (.afterMisuse r)
  | none =>
    match s.refused with
    | some r => .fault (.afterRefusal r)
    | none => k

/-- The operation returns a value. -/
def State.returning (s : State) (v : Returned) : State := { s with obs := { s.obs with returned := some v } }

/-- `n` bytes the spec does not fix, the next ones of the free sequence. -/
def freeBytes (k n : Nat) : List Byte := (List.range n).map (fun i => Config.freeByte (k + i))

/-- A register access of `n` bytes returns these. -/
def accessValue (n : Nat) (bytes : List Byte) : Returned :=
  match n with
  | 1 => .byte (bytes.getD 0 0)
  | 2 => .word (bytes.getD 1 0 ++ bytes.getD 0 0)
  | _ => .bytes bytes

/-- A read that is not applied returns `n` bytes the spec does not fix (R350). -/
def unfixedRead (h : Halt) (n : Nat) (s : State) : State :=
  { (recordHalt h s).returning (accessValue n (freeBytes s.freeCount n)) with freeCount := s.freeCount + n }

/-- A pull that is not applied returns any `len` bytes (R350). -/
def unfixedPull (h : Halt) (len : Nat) (s : State) : State :=
  { (recordHalt h s).returning (.bytes (freeBytes s.freeCount len)) with freeCount := s.freeCount + len }

/-! ## The provider (R100 to R104) -/

/-- The query is made (R391 observes it). -/
def State.asking (s : State) (q : Query) : State := { s with obs := { s.obs with queries := s.obs.queries ++ [q] } }

/-- `Disc.isDiscPresent()`. -/
def askPresent (s : State) : Bool × State :=
  (s.answers.present,
   { s.asking .isDiscPresent with answers := { s.answers with present := s.answers.presentAgain } })

/-- `disc_ready()` (R102); with the tray open the provider is not asked (log entry 11). -/
def discReady (s : State) : Bool × State := if s.trayOpen then (false, s) else askPresent s

/-- The TOC the provider answers, a malformed one counting as `error` (R101, R104). -/
def answeredToc (a : Answers) : Option Toc :=
  match a.toc with
  | some t => if tocValid t then some t else none
  | none => none

/-- `S.toc_cache <- none` with its DiscFormat (R46). -/
def State.dropToc (s : State) : State := { (s.putDiscFormat 0) with tocCache := none }

/-- `S.toc_cache <- t` with its DiscFormat (R46). -/
def State.keepToc (s : State) (t : Toc) : State := { (s.putDiscFormat t.discFormat) with tocCache := some t }

/-- `get_toc()` (R104): `none` for `error`. -/
def cachedToc (s : State) : Option Toc × State :=
  match s.tocCache with
  | some t => (some t, s)
  | none =>
    match answeredToc s.answers with
    | some t => (some t, (s.asking .getTOC).keepToc t)
    | none => (none, s.asking .getTOC)

/-- `if disc_ready() then get_toc() else error` (R224, R248). -/
def tocIfReady (s : State) : Option Toc × State :=
  if (discReady s).1 then cachedToc (discReady s).2 else (none, (discReady s).2)

/-! ## PioBuffer (R82 to R88) -/

/-- `PioBuffer.fill(nbytes)` (R82). -/
def pioFill (nbytes : Nat) (s : State) : Except Halt State :=
  if pioCapacityBytes < nbytes then misused .pioOverCapacity s
  else .ok { s with pio := { s.pio with cursor := 0, size := (nbytes + 1) / 2 } }

/-- The bytes with a 0x00 appended when their number is odd (R83). -/
def evenBytes (bytes : List Byte) : List Byte := if bytes.length % 2 = 1 then bytes ++ [0x00] else bytes

/-- `load bytes into S.pio.data` (R83). -/
def pioLoad (bytes : List Byte) (s : State) : State :=
  { s with pio := { s.pio with data := Memory.load s.pio.data (evenBytes bytes) } }

/-- Word `i` of the PioBuffer: the earlier byte in the low half (R83, R96). -/
def pioWord (s : State) (i : Nat) : Half := Memory.read s.pio.data (2 * i + 1) ++ Memory.read s.pio.data (2 * i)

/-- `PioBuffer.read()` (R84). -/
def pioRead (s : State) : Except Halt (Half × State) :=
  if s.pio.cursor < s.pio.size then
    .ok (pioWord s s.pio.cursor, { s with pio := { s.pio with cursor := s.pio.cursor + 1 } })
  else misused .pioReadPastEnd s

/-- `PioBuffer.write(v)` (R85). -/
def pioWrite (v : Half) (s : State) : Except Halt State :=
  if s.pio.cursor < s.pio.size then
    .ok { s with pio := { s.pio with
      data := Memory.write (Memory.write s.pio.data (2 * s.pio.cursor) (v.extractLsb' 0 8))
        (2 * s.pio.cursor + 1) (v.extractLsb' 8 8)
      cursor := s.pio.cursor + 1 } }
  else misused .pioWritePastEnd s

/-- `PioBuffer.atEnd()` (R86). -/
def pioAtEnd (s : State) : Bool := s.pio.cursor == s.pio.size

/-- `PioBuffer.clear()` (R87). -/
def pioClear (s : State) : State := { s with pio := { s.pio with cursor := 0, size := 0, nextState := .pioEnd } }

/-- Byte `j` of a block received through the PioBuffer (R88). -/
def receivedByte (s : State) (j : Nat) : Byte := Memory.read s.pio.data j

/-! ## DmaBuffer (R90 to R94) -/

/-- `DmaBuffer.getSize()` (R90). -/
def dmaUnread (s : State) : Nat := s.dma.size - s.dma.cursor

/-- `DmaBuffer.isEmpty()` (R90). -/
def dmaIsEmpty (s : State) : Bool := s.dma.cursor == s.dma.size

/-- `DmaBuffer.clear()` (R94). -/
def dmaClear (s : State) : State := { s with dma := { s.dma with cursor := 0, size := 0 } }

/-- The provider's answer to `readSectors`, `none` for `error` or for an answer of another length (R103). -/
def answeredSectors (a : Answers) (n : Nat) : Option (List Byte) :=
  match a.sectors with
  | some r => if r.length = n then some r else none
  | none => none

/-- `DmaBuffer.fill()` (R91): true for ok, false for error (R92). A descriptor without a size cannot come here (R286 has
refused it). -/
def dmaFill (s : State) : Except Halt (Bool × State) :=
  if dmaIsEmpty s then
    let p := s.readParams
    let n := min dmaMaxSectors p.remaining
    match sectorSize s.cfg p.sectorType with
    | none => refusedFor .unspecifiedSectorSelection s
    | some sz =>
      let asked := s.asking (.readSectors p.startSector n p.sectorType)
      match answeredSectors s.answers (n * sz) with
      | none => .ok (false, asked)
      | some r =>
        .ok (true, { asked with
          dma := { data := Memory.load s.dma.data r, cursor := 0, size := n * sz }
          readParams := { p with startSector := p.startSector + n, remaining := p.remaining - n } })
  else misused .dmaFillNotEmpty s

/-- `DmaBuffer.read(len)` (R93). -/
def dmaRead (len : Nat) (s : State) : Except Halt (List Byte × State) :=
  if len ≤ dmaUnread s then
    .ok (Memory.slice s.dma.data s.dma.cursor len, { s with dma := { s.dma with cursor := s.dma.cursor + len } })
  else misused .dmaReadPastEnd s

/-! ## Interrupts and the entry procedures (R170 to R177, R340) -/

/-- `raise_irq(kind)` (R340). -/
def raiseIrq (k : IrqKind) (s : State) : State :=
  { s with intrq := true, obs := { s.obs with irqs := s.obs.irqs ++ [k] } }

/-- The accumulator with all bytes 0 and index 0 (R36). -/
def Packet.cleared : Packet := { b := List.replicate packetBytes 0, index := 0 }

/-- The read parameters after "reset": `(0, 0, 0)` (R37). -/
def ReadParams.cleared : ReadParams := { startSector := 0, remaining := 0, sectorType := 0 }

/-- `enter(gds_waitcmd)` (R171). -/
def enterWaitcmd (s : State) : State :=
  ({ s with state := .waitcmd }.putStatus drdyBit true).putStatus bsyBit false

/-- `enter(gds_waitpacket)` (R172). -/
def enterWaitpacket (s : State) : State :=
  (({ s with state := .waitpacket, packet := Packet.cleared }.putStatus drqBit true).putStatus bsyBit false).putReason true false

/-- The common lines of R174 and R175; `io` is true for device to host. -/
def openDataPhase (st : GdState) (io : Bool) (s : State) : State :=
  raiseIrq .dataRequest
    ((({ s with state := st, byteCount := BitVec.ofNat 16 (2 * s.pio.size) }.putReason false io).putStatus drqBit true).putStatus
      bsyBit false)

/-- `enter(gds_pio_send_data)` (R174). -/
def enterPioSendData (s : State) : State := openDataPhase .pioSendData true s

/-- `enter(gds_pio_get_data)` (R175). -/
def enterPioGetData (s : State) : State := openDataPhase .pioGetData false s

/-- `enter(gds_procpacketdone, kind)` (R177). -/
def enterProcpacketdone (k : IrqKind) (s : State) : State :=
  enterWaitcmd (raiseIrq k
    { ((((({ s with state := .procpacketdone }.putStatus drdyBit true).putReason true true).putStatus drqBit false).putStatus
        bsyBit false)) with readParams := ReadParams.cleared, pioLimit := 0 })

/-- `enter(gds_pio_end)` (R176). -/
def enterPioEnd (s : State) : State :=
  enterProcpacketdone .complete ({ s with state := .pioEnd }.putStatus drqBit false)

/-- `spi_done()` (R182). -/
def spiDone (s : State) : State := enterProcpacketdone .complete s

/-- `ata_complete(kind)` (R183). -/
def ataComplete (k : IrqKind) (s : State) : State := enterWaitcmd (raiseIrq k (s.putStatus drqBit false))

/-- `pio_respond(bytes, next)` (R181). -/
def pioRespond (bytes : List Byte) (next : GdState) (s : State) : Except Halt State :=
  if bytes.length = 0 then .ok (enterProcpacketdone .complete s)
  else
    match pioFill bytes.length s with
    | .error h => .error h
    | .ok s1 =>
      let s2 := pioLoad bytes s1
      .ok (enterPioSendData { s2 with pio := { s2.pio with nextState := next } })

/-- `pio_receive(nbytes, next)` (R181); `enterNext` is `enter(next)`. -/
def pioReceive (nbytes : Nat) (next : GdState) (enterNext : Act) (s : State) : Except Halt State :=
  match pioFill nbytes s with
  | .error h => .error h
  | .ok s1 =>
    let s2 := { s1 with pio := { s1.pio with nextState := next } }
    if nbytes = 0 then enterNext s2 else .ok (enterPioGetData s2)

/-- `respond_slice(block, off, len)` (R222). -/
def respondSlice (block : List Byte) (off len : Nat) (s : State) : Except Halt State :=
  pioRespond (window block off len) .pioEnd s

/-! ## The failure procedure and the collection of the error (R345, R346) -/

/-- Whether a failure is an ATA command's or a packet's (R345). -/
inductive FailLevel where
  | ata | spi
  deriving DecidableEq, Repr

/-- `raise Fail(key, asc, ascq, bit, level)` (R345). -/
def raiseFail (e : Sense) (bit : ErrorBit) (level : FailLevel) (s : State) : State :=
  let recorded := { s with sense := e, error := errorValue e.key bit }.putStatus checkBit true
  let aborted := { pioClear (dmaClear recorded) with readParams := ReadParams.cleared, pioLimit := 0 }
  match level with
  | .ata => ataComplete .error aborted
  | .spi => enterProcpacketdone .error aborted

/-- The collection of the pending error (R236, R346): sense, CHECK and the error register go together. -/
def collectError (s : State) : State :=
  { s with sense := { key := 0, asc := 0, ascq := 0 }, error := 0x00 }.putStatus checkBit false

/-- not-ready, medium not present (R331). -/
def failNotReady (s : State) : State := raiseFail { key := 0x2, asc := 0x3A, ascq := 0x00 } .none .spi s

/-- medium-error, unrecovered read error (R331). -/
def failMedium (s : State) : State := raiseFail { key := 0x3, asc := 0x11, ascq := 0x00 } .none .spi s

/-- illegal-request, a packet field has a value the command does not accept (R331). -/
def failField (s : State) : State := raiseFail { key := 0x5, asc := 0x24, ascq := 0x00 } .ili .spi s

/-- `need_ready()` before `k` (R261). -/
def needReady (k : Act) (s : State) : Except Halt State :=
  if (discReady s).1 then k (discReady s).2 else .ok (failNotReady (discReady s).2)

/-- `need_toc()` before `k` (R261). -/
def needToc (k : Toc → Act) (s : State) : Except Halt State :=
  match (cachedToc s).1 with
  | some t => k t (cachedToc s).2
  | none => .ok (failMedium (cachedToc s).2)

/-! ## Reset (R370, R371, R373) -/

/-- The CDDA fields after a reset (R42). -/
def Cdda.home : Cdda :=
  { status := .noInfo, repeats := 0, current := 150, last := 150, start := 150, scan := .none }

/-- `unit_refresh()` (R373). -/
def unitRefresh (s : State) : State :=
  if s.trayOpen then s.putUnit unitOpen
  else if (askPresent s).1 then (askPresent s).2.putUnit unitStandby
  else (askPresent s).2.putUnit unitNoDisc

/-- `soft_reset()` (R371). -/
def softResetState (s : State) : State :=
  let cleared := dmaClear (pioClear
    { s with
      status := 0x00
      error := 0x00
      intReason := 0x00
      intrq := false
      packet := Packet.cleared
      readParams := ReadParams.cleared
      pioLimit := 0 })
  let forgotten := { cleared with
    cdda := Cdda.home
    sense := { key := 0, asc := 0, ascq := 0 }
    setMode := { offset := 0, length := 0 } }.dropToc
  enterWaitcmd (unitRefresh forgotten)

/-- `HardReset` (R370): every field of `S`; the model's own fields stay. -/
def hardResetState (s : State) : State :=
  unitRefresh (
    { s with
      state := .waitcmd
      status := 0x40
      error := 0x00
      features := 0x00
      intReason := 0x00
      sectCount := 0x00
      byteCount := 0x0000
      driveSel := 0x00
      intrq := false
      packet := Packet.cleared
      readParams := ReadParams.cleared
      pioLimit := 0
      dmaEnable := false
      transferMode := 0x00
      pio := { data := [], cursor := 0, size := 0, nextState := .pioEnd }
      dma := { data := [], cursor := 0, size := 0 }
      cdda := Cdda.home
      sense := { key := 0, asc := 0, ascq := 0 }
      hwInfo := s.cfg.hwInfoReset
      setMode := { offset := 0, length := 0 }
      tocCache := none
      trayOpen := false
      misuse := none
      refused := none }.putDiscFormat 0)

/-! ## Snapshot (R51) -/

/-- Restore a snapshot: the saved `S` whole, beside the model's own fields as they are now (R51, R52). -/
def State.restore (now saved : State) : State :=
  { saved with
    cfg := now.cfg
    answers := now.answers
    obs := now.obs
    freeCount := now.freeCount
    inbox := now.inbox }

end Sys2Proof.Machine
end

