-- ==== Sys2Proof/Machine/Control.lean ====
section
/-! DEFINITION. The handlers of the tray and playback-control packets (spec/43_spi_cd_control.md). -/

namespace Sys2Proof.Machine

open Sys2Proof

/-- `unit_from_cdda()` (R260). -/
def unitFromCdda (s : State) : State :=
  match s.cdda.status, s.cdda.scan with
  | .playing, .none => s.putUnit unitPlay
  | .playing, .forward => s.putUnit unitScan
  | .playing, .reverse => s.putUnit unitScan
  | .paused, _ => s.putUnit unitPause
  | .noInfo, _ => s
  | .terminated, _ => s

/-- CD_OPEN (R265). -/
def spiCdOpen (_ : Params) (s : State) : Except Halt State :=
  let stopped := { s with cdda := { s.cdda with status := .terminated, scan := .none } }.dropToc
  .ok (spiDone ((pioClear (dmaClear { stopped with trayOpen := true })).putUnit unitOpen))

/-- The range test of CD_PLAY against the TOC bounds (R268). -/
def playRangeOk (t : Toc) (s e : Fad) : Bool :=
  decide ((t.tracks.headD t.leadout).fad.toNat ≤ s.toNat) && decide (s.toNat ≤ e.toNat) && decide (e.toNat ≤ t.leadout.fad.toNat)

/-- CD_PLAY with positions, `ptype` 1 or 2 (R268). -/
def playFrom (p : Params) : Act :=
  needToc (fun t s =>
    if playRangeOk t p.position p.endPosition then
      .ok (spiDone (({ s with cdda :=
        { status := .playing, repeats := p.repeats, current := p.position, last := p.endPosition, start := p.position,
          scan := .none } }.putStatus dscBit true).putUnit unitPlay))
    else .ok (failField s))

/-- Is the current frame inside the programmed range? -/
def Cdda.inRange (c : Cdda) (f : Fad) : Bool := decide (c.start.toNat ≤ f.toNat) && decide (f.toNat ≤ c.last.toNat)

/-- Resume, CD_PLAY with `ptype` 7 (R269). -/
def resume (s : State) : Except Halt State :=
  if s.cdda.status = .paused then
    if s.cdda.inRange s.cdda.current then
      .ok (spiDone ({ s with cdda := { s.cdda with status := .playing } }.putUnit unitPlay))
    else .ok (spiDone ({ s with cdda := { s.cdda with status := .terminated } }.putUnit unitStandby))
  else .ok (spiDone s)

/-- CD_PLAY (R268). -/
def spiCdPlay (p : Params) (s : State) : Except Halt State :=
  needReady (fun s1 =>
    match p.ptype.toNat with
    | 1 => playFrom p s1
    | 2 => playFrom p s1
    | 7 => resume s1
    | _ => .ok (failField s1)) s

/-- CD_SEEK with a position, `ptype` 1 or 2 (R270). -/
def seekTo (p : Params) (s : State) : Except Halt State :=
  if s.cdda.status = .playing ∧ s.cdda.inRange p.position = false then .ok (failField s)
  else
    .ok (spiDone (unitFromCdda ({ s with cdda := { s.cdda with
      current := p.position
      status := if s.cdda.status = CddaStatus.noInfo then CddaStatus.paused else s.cdda.status } }.putStatus dscBit true)))

/-- Pause, CD_SEEK with `ptype` 4 (R272). -/
def pause (s : State) : Except Halt State :=
  if s.cdda.status = .playing then
    .ok (spiDone ({ s with cdda := { s.cdda with status := .paused, scan := .none } }.putUnit unitPause))
  else .ok (spiDone s)

/-- CD_SEEK (R270). -/
def spiCdSeek (p : Params) (s : State) : Except Halt State :=
  needReady (fun s1 =>
    match p.ptype.toNat with
    | 1 => seekTo p s1
    | 2 => seekTo p s1
    | 4 => pause s1
    | _ => .ok (failField s1)) s

/-- CD_SCAN with a position, `ptype` 1 or 2 (R274). -/
def scanFrom (p : Params) (s : State) : Except Halt State :=
  if s.cdda.inRange p.position then
    .ok (spiDone (({ s with cdda := { s.cdda with
      current := p.position
      scan := if p.reverse then .reverse else .forward
      status := .playing } }.putStatus dscBit true).putUnit unitScan))
  else .ok (failField s)

/-- CD_SCAN (R274). -/
def spiCdScan (p : Params) (s : State) : Except Halt State :=
  needReady (fun s1 =>
    match p.ptype.toNat with
    | 1 => scanFrom p s1
    | 2 => scanFrom p s1
    | _ => .ok (failField s1)) s

end Sys2Proof.Machine
end

