-- ==== Sys2Proof/Machine/Info.lean ====
section
/-! DEFINITION. The handlers of the information packets (spec/42_spi_info_commands.md). A handler starts in `gds_procpacket`
with BSY 1 and DRQ 0 (R173); `p` is `b[1..11]`. -/

namespace Sys2Proof.Machine

open Sys2Proof

/-- TEST_UNIT (R221). -/
def spiTestUnit (_ : Params) (s : State) : Except Halt State := needReady (fun s1 => .ok (spiDone s1)) s

/-- REQ_STAT (R223). -/
def spiReqStat (p : Params) (s : State) : Except Halt State :=
  respondSlice (statBlock (tocIfReady s).1 (tocIfReady s).2) p.offset.toNat p.alloc8.toNat (tocIfReady s).2

/-- REQ_MODE (R228). -/
def spiReqMode (p : Params) (s : State) : Except Halt State :=
  respondSlice s.hwInfo p.offset.toNat p.alloc8.toNat s

/-- Byte `i` of the hardware-info block after a SET_MODE block of `len` bytes at `off` (R233). -/
def modeByteAfter (s : State) (off len i : Nat) : Byte :=
  if off ≤ i ∧ i < off + len ∧ modeByteWritable i = true then receivedByte s (i - off) else s.hwInfo.getD i 0

/-- `enter(gds_process_set_mode)` (R233). -/
def enterProcessSetMode (s : State) : Except Halt State :=
  let s1 := { s with state := .processSetMode }.putStatus bsyBit true
  let off := s.setMode.offset.toNat
  let len := s.setMode.length.toNat
  if 32 < off + len then .ok (raiseFail { key := 0x5, asc := 0x26, ascq := 0x00 } .ili .spi s1)
  else .ok (enterPioEnd { s1 with hwInfo := (List.range 32).map (modeByteAfter s off len) })

/-- SET_MODE, dispatch (R232). -/
def spiSetMode (p : Params) (s : State) : Except Halt State :=
  pioReceive p.alloc8.toNat .processSetMode enterProcessSetMode
    { s with setMode := { offset := p.offset, length := p.alloc8 } }

/-- REQ_ERROR (R236). -/
def spiReqError (p : Params) (s : State) : Except Halt State :=
  pioRespond ((senseBlock s.sense).take p.alloc8.toNat) .pioEnd (collectError s)

/-- GET_TOC (R240). -/
def spiGetToc (p : Params) (s : State) : Except Halt State :=
  needReady (needToc (fun t s1 => pioRespond ((tocBytes t).take p.alloc16.toNat) .pioEnd s1)) s

/-- REQ_SES (R244). -/
def spiReqSes (p : Params) (s : State) : Except Halt State :=
  needReady (needToc (fun t s1 =>
    if t.sessions.length < p.session.toNat then .ok (failField s1)
    else pioRespond ((sessionBlock t p.session.toNat s1.unitStatus).take p.alloc8.toNat) .pioEnd s1)) s

/-- GET_SCD (R248). -/
def spiGetScd (p : Params) (s : State) : Except Halt State :=
  if p.format = 1 then
    pioRespond ((positionBlock (tocIfReady s).1 (tocIfReady s).2.cdda).take p.alloc16.toNat) .pioEnd (tocIfReady s).2
  else .ok (failField s)

/-- An unrecognized opcode (R252). -/
def spiUnrecognizedOpcode (_ : Params) (s : State) : Except Halt State :=
  .ok (raiseFail { key := 0x5, asc := 0x20, ascq := 0x00 } .ili .spi s)

end Sys2Proof.Machine
end

