-- ==== Sys2Proof/Machine/Sectors.lean ====
section
/-! DEFINITION. The sector reads and the read engine with its two paths (spec/44_sector_read.md). -/

namespace Sys2Proof.Machine

open Sys2Proof

/-- `read_fail()` (R290). -/
def readFail (s : State) : State :=
  if (discReady s).1 then failMedium (discReady s).2 else failNotReady (discReady s).2

/-- `S.pio_limit` with bit 0 cleared (R291). -/
def chunkLimit (s : State) : Nat := s.pioLimit.toNat - s.pioLimit.toNat % 2

/-- Offer the next chunk of the bytes waiting in the DmaBuffer (R291). -/
def offerChunk (s : State) : Except Halt State :=
  match dmaRead (min (chunkLimit s) (dmaUnread s)) s with
  | .error h => .error h
  | .ok (bytes, s1) =>
    match pioFill bytes.length s1 with
    | .error h => .error h
    | .ok s2 =>
      let s3 := pioLoad bytes s2
      .ok (enterPioSendData { s3 with pio := { s3.pio with nextState := .readsectorPio } })

/-- `enter(gds_readsector_pio)` (R291). -/
def enterReadsectorPio (s : State) : Except Halt State :=
  let s1 := { s with state := .readsectorPio }.putStatus bsyBit true
  if dmaIsEmpty s1 then
    if s1.readParams.remaining = 0 then .ok (enterPioEnd s1)
    else
      match dmaFill s1 with
      | .error h => .error h
      | .ok (false, s2) => .ok (readFail s2)
      | .ok (true, s2) => offerChunk s2
  else offerChunk s1

/-- `dma_service()` (R295). -/
def dmaService (s : State) : Except Halt State :=
  if dmaIsEmpty s then
    if s.readParams.remaining = 0 then .ok (enterProcpacketdone .complete s)
    else
      match dmaFill s with
      | .error h => .error h
      | .ok (false, s1) => .ok (readFail s1)
      | .ok (true, s1) => .ok s1
  else .ok s

/-- `enter(gds_readsector_dma)` (R294). -/
def enterReadsectorDma (s : State) : Except Halt State :=
  dmaService ({ s with state := .readsectorDma }.putStatus bsyBit true)

/-- `read_start(count)` (R286). -/
def readStart (p : Params) (count : Nat) (s : State) : Except Halt State :=
  match sectorSize s.cfg p.sectorType with
  | none => refusedFor .unspecifiedSectorSelection s
  | some _ =>
    needReady (fun s1 =>
      if s1.dmaEnable = false ∧ 0 < count ∧ s1.byteCount.toNat < 2 then misused .pioLimitTooSmall s1
      else
        let s2 := { dmaClear { s1 with readParams :=
          { startSector := p.readStart.toNat, remaining := count, sectorType := p.sectorType } } with
          pioLimit := s1.byteCount }
        if s1.dmaEnable then enterReadsectorDma s2 else enterReadsectorPio s2) s

/-- CD_READ (R284). -/
def spiCdRead (p : Params) (s : State) : Except Halt State := readStart p p.count24.toNat s

/-- CD_READ2 (R285). -/
def spiCdRead2 (p : Params) (s : State) : Except Halt State := readStart p p.count16.toNat s

end Sys2Proof.Machine
end

