-- ==== Sys2Proof/Machine/Port.lean ====
section
/-! DEFINITION. The packet dispatch (R220), `enter(st)` for any state (R170), and the register port but for the command write
(R160 to R168). -/

namespace Sys2Proof.Machine

open Sys2Proof

/-- `spi_dispatch()` (R220) on opcode and parameter bytes. -/
def spiHandler (opcode : Byte) (p : Params) : Act :=
  match spiOp opcode with
  | .testUnit => spiTestUnit p
  | .reqStat => spiReqStat p
  | .reqMode => spiReqMode p
  | .setMode => spiSetMode p
  | .reqError => spiReqError p
  | .getToc => spiGetToc p
  | .reqSes => spiReqSes p
  | .cdOpen => spiCdOpen p
  | .cdPlay => spiCdPlay p
  | .cdSeek => spiCdSeek p
  | .cdScan => spiCdScan p
  | .cdRead => spiCdRead p
  | .cdRead2 => spiCdRead2 p
  | .getScd => spiGetScd p
  | .other => spiUnrecognizedOpcode p

/-- The first lines of `enter(gds_procpacket)` (R173), before the dispatch. -/
def startPacket (s : State) : State :=
  ({ s with state := .procpacket }.putStatus drqBit false).putStatus bsyBit true

/-- `enter(gds_procpacket)` (R173): the dispatch reads the bytes the host has written (R112). -/
def enterProcpacket (s : State) : Except Halt State :=
  spiHandler (s.packet.b.getD 0 0) (Params.ofPacket s.packet.b) (startPacket s)

/-- `enter(st)` (R170). A continuation through `gds_procpacketdone` would complete; none of the spec's is that state
(R164, R167). -/
def enter (st : GdState) (s : State) : Except Halt State :=
  match st with
  | .waitcmd => .ok (enterWaitcmd s)
  | .waitpacket => .ok (enterWaitpacket s)
  | .procpacket => enterProcpacket s
  | .pioSendData => .ok (enterPioSendData s)
  | .pioGetData => .ok (enterPioGetData s)
  | .pioEnd => .ok (enterPioEnd s)
  | .procpacketdone => .ok (enterProcpacketdone .complete s)
  | .readsectorPio => enterReadsectorPio s
  | .readsectorDma => enterReadsectorDma s
  | .processSetMode => enterProcessSetMode s

/-- What follows the access that drains the PioBuffer: DRQ falls and the stored continuation is entered (R86, R164, R167). -/
def endPhaseIfDrained (s : State) : Except Halt State :=
  if pioAtEnd s then enter s.pio.nextState (s.putStatus drqBit false) else .ok s

/-! ## The DATA port (R164 to R168) -/

/-- `HostRead(DATA, n)` (R164, R165). -/
def hostReadData (n : Nat) (s : State) : Except Halt State :=
  if s.state ≠ .pioSendData then misused .dataReadNoPhase s
  else if n ≠ 2 then misused .badAccessSize s
  else
    match pioRead s with
    | .error h => .error h
    | .ok (v, s1) => endPhaseIfDrained (s1.returning (.word v))

/-- A packet byte at index `i` of the accumulator (R166). -/
def packetBytesAfter (b : List Byte) (i n : Nat) (v : Half) : List Byte :=
  if n = 2 then (b.set i (v.extractLsb' 0 8)).set (i + 1) (v.extractLsb' 8 8) else b.set i (v.extractLsb' 0 8)

/-- A DATA write while a packet is collected (R166). -/
def collectPacket (n : Nat) (v : Half) (s : State) : Except Halt State :=
  let i := s.packet.index
  if packetBytes < i + n then misused .packetOverrun s
  else
    let s1 := { s with packet := { b := packetBytesAfter s.packet.b i n v, index := i + n } }
    if i + n = packetBytes then enterProcpacket s1 else .ok s1

/-- `HostWrite(DATA, n, v)` (R166 to R168). -/
def hostWriteData (n : Nat) (v : Half) (s : State) : Except Halt State :=
  if n ≠ 1 ∧ n ≠ 2 then misused .badAccessSize s
  else if s.state = .waitpacket then collectPacket n v s
  else if s.state = .pioGetData then
    if n = 2 then
      match pioWrite v s with
      | .error h => .error h
      | .ok s1 => endPhaseIfDrained s1
    else misused .badAccessSize s
  else misused .dataWriteNoPhase s

/-! ## The register port -/

/-- A read of an 8-bit register that leaves `t` and returns `v`, or a misuse for another size (R97, R160). -/
def readRegister (n : Nat) (v : Byte) (s t : State) : Result :=
  whileLive s
    (if n = 1 then .next (t.returning (.byte v))
     else .next (unfixedRead { why := .misuse .badAccessSize, asked := s.obs.queries } n s))

/-- A write of an 8-bit register that leaves `t`, or a misuse for another size (R97, R160). -/
def writeRegister (n : Nat) (s t : State) : Result :=
  whileLive s (applied s (if n = 1 then .ok t else misused .badAccessSize s))

/-- R_DATA (R164, R165). -/
def execRData (n : Nat) (s : State) : Result :=
  whileLive s
    (match hostReadData n s with
      | .ok t => .next t
      | .error h => .next (unfixedRead h n s))

/-- R_ERROR (R161). -/
def execRError (n : Nat) (s : State) : Result := readRegister n s.error s s

/-- R_INTREASON (R161). -/
def execRIntreason (n : Nat) (s : State) : Result := readRegister n s.intReason s s

/-- R_SECTNUM (R161). -/
def execRSectnum (n : Nat) (s : State) : Result := readRegister n s.sectNum s s

/-- R_BCLOW (R161). -/
def execRBclow (n : Nat) (s : State) : Result := readRegister n (s.byteCount.extractLsb' 0 8) s s

/-- R_BCHIGH (R161). -/
def execRBchigh (n : Nat) (s : State) : Result := readRegister n (s.byteCount.extractLsb' 8 8) s s

/-- R_DRIVESEL (R161). -/
def execRDrivesel (n : Nat) (s : State) : Result := readRegister n s.driveSel s s

/-- R_STATUS (R162): the read withdraws the interrupt request. -/
def execRStatus (n : Nat) (s : State) : Result := readRegister n s.status s { s with intrq := false }

/-- W_DATA (R166, R167, R168). -/
def execWData (n : Nat) (v : Half) (s : State) : Result := whileLive s (applied s (hostWriteData n v s))

/-- W_FEATURES (R163). -/
def execWFeatures (n : Nat) (v : Half) (s : State) : Result := writeRegister n s { s with features := v.extractLsb' 0 8 }

/-- W_SECTCOUNT (R163). -/
def execWSectcount (n : Nat) (v : Half) (s : State) : Result := writeRegister n s { s with sectCount := v.extractLsb' 0 8 }

/-- W_SECTNUM (R163, R30): accepted, changes nothing. -/
def execWSectnum (n : Nat) (_ : Half) (s : State) : Result := writeRegister n s s

/-- W_BCLOW (R163). -/
def execWBclow (n : Nat) (v : Half) (s : State) : Result :=
  writeRegister n s { s with byteCount := s.byteCount.extractLsb' 8 8 ++ v.extractLsb' 0 8 }

/-- W_BCHIGH (R163). -/
def execWBchigh (n : Nat) (v : Half) (s : State) : Result :=
  writeRegister n s { s with byteCount := v.extractLsb' 0 8 ++ s.byteCount.extractLsb' 0 8 }

/-- W_DRIVESEL (R163). -/
def execWDrivesel (n : Nat) (v : Half) (s : State) : Result := writeRegister n s { s with driveSel := v.extractLsb' 0 8 }

end Sys2Proof.Machine
end

