-- ==== Sys2Proof/Machine/Ata.lean ====
section
/-! DEFINITION. The command write (R169), the ATA dispatcher (R200) and the ATA commands (spec/41_ata_commands.md). A command
is applied as the write of its code to the COMMAND register (R10, R121). -/

namespace Sys2Proof.Machine

open Sys2Proof

/-- NOP (R201). -/
def ataNop (s : State) : Except Halt State := .ok (ataComplete .complete s)

/-- SOFT_RESET (R202). -/
def ataSoftReset (s : State) : Except Halt State := .ok (raiseIrq .complete (softResetState s))

/-- EXEC_DIAG (R203). -/
def ataExecDiag (s : State) : Except Halt State := .ok (raiseIrq .complete (softResetState s))

/-- SPI_PACKET (R204). -/
def ataSpiPacket (s : State) : Except Halt State := .ok (enterWaitpacket s)

/-- IDENTIFY_DEVICE (R205). -/
def ataIdentifyDevice (s : State) : Except Halt State := pioRespond s.cfg.identifyBlock .pioEnd s

/-- IDENTIFY (R206). -/
def ataIdentify (s : State) : Except Halt State := pioRespond s.cfg.identifyBlock .pioEnd s

/-- SET_FEATURES (R207). -/
def ataSetFeatures (s : State) : Except Halt State :=
  if featurePairValid s.features s.sectCount then
    .ok (ataComplete .complete { s with transferMode := s.sectCount, dmaEnable := dmaModeSelected s.sectCount })
  else .ok (raiseFail { key := 0xB, asc := 0x00, ascq := 0x00 } .abrt .ata s)

/-- An unknown command code (R208). -/
def ataUnknownCode (s : State) : Except Halt State :=
  .ok (raiseFail { key := 0x5, asc := 0x20, ascq := 0x00 } .abrt .ata s)

/-- `ata_dispatch(code)` (R200). -/
def ataHandler (code : Byte) : Act :=
  match ataOp code with
  | .nop => ataNop
  | .softReset => ataSoftReset
  | .execDiag => ataExecDiag
  | .spiPacket => ataSpiPacket
  | .identifyDevice => ataIdentifyDevice
  | .identify => ataIdentify
  | .setFeatures => ataSetFeatures
  | .other => ataUnknownCode

/-- The first lines of an accepted command write (R169): BSY 1, DRDY 0. -/
def acceptCommand (s : State) : State := (s.putStatus bsyBit true).putStatus drdyBit false

/-- The write of command `code` (R169) with the command's own effect `h`: accepted in `gds_waitcmd`, SOFT_RESET in every
state. -/
def commandWrite (code : Byte) (h : Act) (s : State) : Except Halt State :=
  if code ≠ 0x08 ∧ s.state ≠ .waitcmd then misused .commandWhileBusy s
  else h (acceptCommand s)

/-- The outcome of a command write. -/
def runCommand (code : Byte) (h : Act) (s : State) : Result := whileLive s (applied s (commandWrite code h s))

/-- W_COMMAND (R169, R200). -/
def execWCommand (n : Nat) (v : Half) (s : State) : Result :=
  whileLive s (applied s
    (if n = 1 then commandWrite (v.extractLsb' 0 8) (ataHandler (v.extractLsb' 0 8)) s else misused .badAccessSize s))

/-- NOP (R201). -/
def execNop (s : State) : Result := runCommand 0x00 ataNop s

/-- SOFT_RESET (R202). -/
def execSoftReset (s : State) : Result := runCommand 0x08 ataSoftReset s

/-- EXEC_DIAG (R203). -/
def execExecDiag (s : State) : Result := runCommand 0x90 ataExecDiag s

/-- SPI_PACKET (R204). -/
def execSpiPacket (s : State) : Result := runCommand 0xA0 ataSpiPacket s

/-- IDENTIFY_DEVICE (R205). -/
def execIdentifyDevice (s : State) : Result := runCommand 0xA1 ataIdentifyDevice s

/-- IDENTIFY (R206). -/
def execIdentify (s : State) : Result := runCommand 0xEC ataIdentify s

/-- SET_FEATURES (R207). -/
def execSetFeatures (s : State) : Result := runCommand 0xEF ataSetFeatures s

/-- Unknown command codes (R208). -/
def execAtaUnknown (code : Byte) (s : State) : Result := runCommand code ataUnknownCode s

end Sys2Proof.Machine
end

