-- ==== Sys2Proof/Machine/Events.lean ====
section
/-! DEFINITION. The operations without an encoding (R145): the DMA engine's port, the audio tick, the tray and the power-on
reset. -/

namespace Sys2Proof.Machine

open Sys2Proof

/-- `DmaAvail()` (R296). -/
def dmaAvailable (s : State) : Nat := if s.state = .readsectorDma then dmaUnread s else 0

/-- DMA_AVAIL (R296). -/
def execDmaAvail (s : State) : Result := whileLive s (.next (s.returning (.count (dmaAvailable s))))

/-- `DmaPull(len)` (R297). -/
def dmaPullBytes (len : Nat) (s : State) : Except Halt State :=
  if s.state ≠ .readsectorDma then misused .dmaPullNoPhase s
  else
    match dmaRead len s with
    | .error h => .error h
    | .ok (r, s1) => dmaService (s1.returning (.bytes r))

/-- DMA_PULL (R297). -/
def execDmaPull (len : Nat) (s : State) : Result :=
  whileLive s
    (match dmaPullBytes len s with
      | .ok t => .next t
      | .error h => .next (unfixedPull h len s))

/-- The reverse branch of `CddaAdvance` (R312). -/
def advanceReverse (s : State) : State :=
  let c := s.cdda
  let cur := if c.start.toNat < c.current.toNat then c.current - 1 else c.current
  if cur = c.start then { s with cdda := { c with current := cur, status := .paused, scan := .none } }.putUnit unitPause
  else { s with cdda := { c with current := cur } }

/-- The play and fast-forward branch of `CddaAdvance` (R312). -/
def advanceForward (s : State) : State :=
  let c := s.cdda
  let cur := if c.current.toNat < c.last.toNat then c.current + 1 else c.current
  if cur = c.last then
    if 0 < c.repeats.toNat then { s with cdda := { c with repeats := c.repeats - 1, current := c.start } }
    else { s with cdda := { c with current := cur, status := .terminated, scan := .none } }.putUnit unitStandby
  else { s with cdda := { c with current := cur } }

/-- `CddaAdvance` (R312). -/
def cddaStep (s : State) : State :=
  if s.cdda.status = .playing then
    match s.cdda.scan with
    | .reverse => advanceReverse s
    | .none => advanceForward s
    | .forward => advanceForward s
  else s

/-- CDDA_ADVANCE (R312). -/
def execCddaAdvance (s : State) : Result := whileLive s (.next (cddaStep s))

/-- `TrayClose` (R266). -/
def closeTray (s : State) : State :=
  if s.trayOpen then unitRefresh { s with trayOpen := false }.dropToc else s

/-- TRAY_CLOSE (R266). -/
def execTrayClose (s : State) : Result := whileLive s (.next (closeTray s))

/-- HARD_RESET (R370): also the one operation with a meaning after a misuse or a refusal (R192). -/
def execHardReset (s : State) : Result := .next (hardResetState s)

end Sys2Proof.Machine
end

