-- ==== Sys2Proof/Machine/Packets.lean ====
section
/-! DEFINITION. The packet commands as operations (R10): the twelve bytes of a packet through the DATA register. -/

namespace Sys2Proof.Machine

open Sys2Proof

/-- The twelve bytes of a packet as the six 16-bit writes that carry them (R124). -/
def packetWords (opcode : Byte) (p : Params) : List Half :=
  [p.b1 ++ opcode, p.b3 ++ p.b2, p.b5 ++ p.b4, p.b7 ++ p.b6, p.b9 ++ p.b8, p.b11 ++ p.b10]

/-- Write words through DATA one after another, up to the first that is not applied. -/
def writeWords : List Half → State → State
  | [], s => s
  | v :: rest, s =>
    match hostWriteData 2 v s with
    | .ok t => writeWords rest t
    | .error h => recordHalt h s

/-- The accumulator when the whole packet is in. -/
def Packet.full (opcode : Byte) (p : Params) : Packet := { b := opcode :: p.toList, index := packetBytes }

/-- A packet as one operation (R10, R124, log entry 12). In `gds_waitpacket` with no byte in, its twelve bytes fill the
accumulator and the packet processor runs the command's handler `h` (R166, R173); anywhere else it is what its six writes of
DATA do. -/
def runPacket (opcode : Byte) (h : Params → Act) (p : Params) (s : State) : Result :=
  whileLive s
    (if s.state = .waitpacket ∧ s.packet.index = 0 then
      applied s (h p (startPacket { s with packet := Packet.full opcode p }))
    else .next (writeWords (packetWords opcode p) s))

/-- TEST_UNIT (R221). -/
def execTestUnit (p : Params) (s : State) : Result := runPacket 0x00 spiTestUnit p s

/-- REQ_STAT (R223). -/
def execReqStat (p : Params) (s : State) : Result := runPacket 0x10 spiReqStat p s

/-- REQ_MODE (R228). -/
def execReqMode (p : Params) (s : State) : Result := runPacket 0x11 spiReqMode p s

/-- SET_MODE (R232, R233). -/
def execSetMode (p : Params) (s : State) : Result := runPacket 0x12 spiSetMode p s

/-- REQ_ERROR (R236). -/
def execReqError (p : Params) (s : State) : Result := runPacket 0x13 spiReqError p s

/-- GET_TOC (R240). -/
def execGetToc (p : Params) (s : State) : Result := runPacket 0x14 spiGetToc p s

/-- REQ_SES (R244). -/
def execReqSes (p : Params) (s : State) : Result := runPacket 0x15 spiReqSes p s

/-- CD_OPEN (R265). -/
def execCdOpen (p : Params) (s : State) : Result := runPacket 0x16 spiCdOpen p s

/-- CD_PLAY (R268, R269). -/
def execCdPlay (p : Params) (s : State) : Result := runPacket 0x20 spiCdPlay p s

/-- CD_SEEK (R270, R272). -/
def execCdSeek (p : Params) (s : State) : Result := runPacket 0x21 spiCdSeek p s

/-- CD_SCAN (R274). -/
def execCdScan (p : Params) (s : State) : Result := runPacket 0x22 spiCdScan p s

/-- CD_READ (R284, R286). -/
def execCdRead (p : Params) (s : State) : Result := runPacket 0x30 spiCdRead p s

/-- CD_READ2 (R285, R286). -/
def execCdRead2 (p : Params) (s : State) : Result := runPacket 0x31 spiCdRead2 p s

/-- GET_SCD (R248). -/
def execGetScd (p : Params) (s : State) : Result := runPacket 0x40 spiGetScd p s

/-- Unrecognized opcodes (R252). -/
def execSpiUnrecognized (opcode : Byte) (p : Params) (s : State) : Result := runPacket opcode spiUnrecognizedOpcode p s

end Sys2Proof.Machine
end

