-- ==== Sys2Proof/Machine/Dispatch.lean ====
section
/-! DEFINITION. One arm per operation: each calls its meaning. -/

namespace Sys2Proof.Machine

open Sys2Proof

def exec (i : Instr) (s : State) : Host.Outcome State Fault Refusal :=
  match i with
  | .rData n => Sys2Proof.Machine.execRData n s
  | .rError n => Sys2Proof.Machine.execRError n s
  | .rIntreason n => Sys2Proof.Machine.execRIntreason n s
  | .rSectnum n => Sys2Proof.Machine.execRSectnum n s
  | .rBclow n => Sys2Proof.Machine.execRBclow n s
  | .rBchigh n => Sys2Proof.Machine.execRBchigh n s
  | .rDrivesel n => Sys2Proof.Machine.execRDrivesel n s
  | .rStatus n => Sys2Proof.Machine.execRStatus n s
  | .wData n v => Sys2Proof.Machine.execWData n v s
  | .wFeatures n v => Sys2Proof.Machine.execWFeatures n v s
  | .wSectcount n v => Sys2Proof.Machine.execWSectcount n v s
  | .wSectnum n v => Sys2Proof.Machine.execWSectnum n v s
  | .wBclow n v => Sys2Proof.Machine.execWBclow n v s
  | .wBchigh n v => Sys2Proof.Machine.execWBchigh n v s
  | .wDrivesel n v => Sys2Proof.Machine.execWDrivesel n v s
  | .wCommand n v => Sys2Proof.Machine.execWCommand n v s
  | .nop => Sys2Proof.Machine.execNop s
  | .softReset => Sys2Proof.Machine.execSoftReset s
  | .execDiag => Sys2Proof.Machine.execExecDiag s
  | .spiPacket => Sys2Proof.Machine.execSpiPacket s
  | .identifyDevice => Sys2Proof.Machine.execIdentifyDevice s
  | .identify => Sys2Proof.Machine.execIdentify s
  | .setFeatures => Sys2Proof.Machine.execSetFeatures s
  | .ataUnknown code => Sys2Proof.Machine.execAtaUnknown code s
  | .testUnit p => Sys2Proof.Machine.execTestUnit p s
  | .reqStat p => Sys2Proof.Machine.execReqStat p s
  | .reqMode p => Sys2Proof.Machine.execReqMode p s
  | .setMode p => Sys2Proof.Machine.execSetMode p s
  | .reqError p => Sys2Proof.Machine.execReqError p s
  | .getToc p => Sys2Proof.Machine.execGetToc p s
  | .reqSes p => Sys2Proof.Machine.execReqSes p s
  | .cdOpen p => Sys2Proof.Machine.execCdOpen p s
  | .cdPlay p => Sys2Proof.Machine.execCdPlay p s
  | .cdSeek p => Sys2Proof.Machine.execCdSeek p s
  | .cdScan p => Sys2Proof.Machine.execCdScan p s
  | .cdRead p => Sys2Proof.Machine.execCdRead p s
  | .cdRead2 p => Sys2Proof.Machine.execCdRead2 p s
  | .getScd p => Sys2Proof.Machine.execGetScd p s
  | .spiUnrecognized opcode p => Sys2Proof.Machine.execSpiUnrecognized opcode p s
  | .dmaAvail => Sys2Proof.Machine.execDmaAvail s
  | .dmaPull len => Sys2Proof.Machine.execDmaPull len s
  | .cddaAdvance => Sys2Proof.Machine.execCddaAdvance s
  | .trayClose => Sys2Proof.Machine.execTrayClose s
  | .hardReset => Sys2Proof.Machine.execHardReset s

end Sys2Proof.Machine
end

