-- ==== Sys2Proof/Machine/Step.lean ====
section
/-! DEFINITION. One step: the oldest waiting operation is applied (R10, R110). -/

namespace Sys2Proof.Machine

open Sys2Proof

/-- The state in which the oldest input is applied: it is taken from the queue, the provider's answers are its own, and
nothing has been shown yet. -/
def takeInput (x : Input) (rest : List Input) (s : State) : State :=
  { s with inbox := rest, answers := x.answers, obs := Observation.empty }

/-- One step. With no operation waiting the hardware does nothing (R10: "The hardware does nothing on its own"). -/
def step (s : State) : Host.Outcome State Fault Refusal :=
  match s.inbox with
  | [] => .next s
  | x :: rest =>
    match decode x.record with
    | .ok i => exec i (takeInput x rest s)
    | .error e => .refused (.malformedRecord e)

/-- Is the operation a packet, whose bytes are taken in `gds_waitpacket` only (R166)? -/
def isPacket : Instr → Bool
  | .testUnit _ => true
  | .reqStat _ => true
  | .reqMode _ => true
  | .setMode _ => true
  | .reqError _ => true
  | .getToc _ => true
  | .reqSes _ => true
  | .cdOpen _ => true
  | .cdPlay _ => true
  | .cdSeek _ => true
  | .cdScan _ => true
  | .cdRead _ => true
  | .cdRead2 _ => true
  | .getScd _ => true
  | .spiUnrecognized _ _ => true
  | .rData _ => false
  | .rError _ => false
  | .rIntreason _ => false
  | .rSectnum _ => false
  | .rBclow _ => false
  | .rBchigh _ => false
  | .rDrivesel _ => false
  | .rStatus _ => false
  | .wData _ _ => false
  | .wFeatures _ _ => false
  | .wSectcount _ _ => false
  | .wSectnum _ _ => false
  | .wBclow _ _ => false
  | .wBchigh _ _ => false
  | .wDrivesel _ _ => false
  | .wCommand _ _ => false
  | .nop => false
  | .softReset => false
  | .execDiag => false
  | .spiPacket => false
  | .identifyDevice => false
  | .identify => false
  | .setFeatures => false
  | .ataUnknown _ => false
  | .dmaAvail => false
  | .dmaPull _ => false
  | .cddaAdvance => false
  | .trayClose => false
  | .hardReset => false

/-- `s` with the operation of a word of the opcode table as its oldest input; for a packet's word the controller is put where
the packet command leaves it, DRDY 0 included (R169, R172), since a packet is taken nowhere else (log entry 2). -/
def State.withFetchWord (s : State) (nbits w : Nat) : State :=
  let ready : State :=
    match decodeTableWord nbits w with
    | some i => if isPacket i then enterWaitpacket (acceptCommand s) else s
    | none => s
  { ready with inbox := { record := tableRecord nbits w, answers := s.answers } :: s.inbox }

end Sys2Proof.Machine
end

