-- ==== Sys2Proof/Safety.lean ====
section
/-! DEFINITION. What a run is, the quiescent condition and the invariant that holds at every suspension point (R22, R49, R391). -/

namespace Sys2Proof

/-- The lengths R7 fixes for the two blocks of the configuration. -/
abbrev Config.sized (c : Config) : Prop := c.identifyBlock.length = 80 ∧ c.hwInfoReset.length = 32

end Sys2Proof

namespace Sys2Proof.Machine

open Sys2Proof

/-- R391's `quiescent`. -/
abbrev State.quiescent (s : State) : Prop := s.state = .waitcmd ∧ s.misuse = none ∧ s.refused = none

/-- No misuse and no refusal is recorded: the premise under which the spec gives an operation a meaning (R350, R351). -/
abbrev State.live (s : State) : Prop := s.misuse = none ∧ s.refused = none

/-- The controller may read sectors again when the host has drained the chunk it is reading (R291). -/
abbrev State.readingByPio (s : State) : Prop := s.state = .pioSendData ∧ s.pio.nextState = .readsectorPio

/-- What holds between two operations. The first eleven clauses are the items of R49; the rest are the ranges and the
reserved bits of the fields' own rules and what the data phases rest on. -/
structure Inv (s : State) : Prop where
  /-- R49 item 1. -/
  pioBounds : s.pio.cursor ≤ s.pio.size ∧ s.pio.size ≤ 32768
  /-- R49 item 2. -/
  dmaBounds : s.dma.cursor ≤ s.dma.size ∧ s.dma.size ≤ 37632
  /-- R49 item 3. -/
  idleStatus : s.state = .waitcmd → s.bsy = false ∧ s.drdy = true ∧ s.drq = false
  /-- R49 item 4. -/
  drqPhase : s.drq = true ↔ s.state = .waitpacket ∨ s.state = .pioSendData ∨ s.state = .pioGetData
  /-- R49 item 5. -/
  bsyRead : s.bsy = true ↔ s.state = .readsectorDma
  /-- R49 item 6. -/
  phaseOpen : s.state = .pioSendData ∨ s.state = .pioGetData → s.pio.cursor < s.pio.size
  /-- R49 item 7. -/
  packetOpen : s.state = .waitpacket → s.packet.index < 12
  /-- R49 item 8. -/
  errorAgrees : (s.check = true ↔ s.sense.key ≠ 0) ∧ s.error.extractLsb' 4 4 = s.sense.key
  /-- R49 item 9. -/
  playRange : s.cdda.status = .playing →
    s.cdda.start.toNat ≤ s.cdda.current.toNat ∧ s.cdda.current.toNat ≤ s.cdda.last.toNat
  /-- R49 item 10. -/
  dmaWaiting : s.state = .readsectorDma → s.dma.cursor < s.dma.size
  /-- R49 item 11. -/
  dmaIdle : s.state = .waitcmd ∨ s.state = .waitpacket → s.dma.cursor = s.dma.size
  /-- R22: an operation ends in a stable state. -/
  stable : s.state.stable = true
  /-- R25: DF, CORR and bit 1 are always 0. -/
  statusReserved : s.status.getLsbD 1 = false ∧ s.status.getLsbD 2 = false ∧ s.status.getLsbD 5 = false
  /-- R26: MCR and EOM are 0, and at most one of ABRT and ILI is 1. -/
  errorReserved : s.error.getLsbD 1 = false ∧ s.error.getLsbD 3 = false ∧ (s.error.getLsbD 0 = false ∨ s.error.getLsbD 2 = false)
  /-- R28: bits 7:2 read 0. -/
  reasonReserved : s.intReason.extractLsb' 2 6 = 0
  /-- R30: only these six unit-status codes are written. -/
  unitCodes : s.unitStatus ∈ [unitPause, unitStandby, unitPlay, unitScan, unitOpen, unitNoDisc]
  /-- R42: a scan only while playing. -/
  scanPlays : s.cdda.scan ≠ .none → s.cdda.status = .playing
  /-- R46: the DiscFormat follows the TOC cache. -/
  formatCached : s.discFormat = (match s.tocCache with | some t => t.discFormat | none => 0)
  /-- The five DiscFormat codes of R30; that the provider cannot bring another is the model's inference (log entry 16). -/
  formatCodes : discFormatOk s.discFormat = true
  /-- R101, R104: what is cached is well formed; its disc_format's code by log entry 16. -/
  cacheValid : ∀ t, s.tocCache = some t → tocValid t = true
  /-- R266, R265: with the tray open nothing plays, no TOC is cached and the unit status is OPEN. -/
  trayStops : s.trayOpen = true → s.cdda.status ≠ .playing ∧ s.tocCache = none ∧ s.unitStatus = unitOpen
  /-- R36: twelve bytes, index 0..12. -/
  packetSize : s.packet.b.length = 12 ∧ s.packet.index ≤ 12
  /-- R44: 32 bytes. -/
  hwInfoSize : s.hwInfo.length = 32
  /-- R7: the blocks of the configuration have their lengths. -/
  configSized : s.cfg.sized
  /-- R40: the PioBuffer's storage is canonical and inside its capacity. -/
  pioStored : Memory.wf s.pio.data ∧ Memory.below s.pio.data 65536
  /-- R41: the DmaBuffer's storage is canonical and inside its capacity. -/
  dmaStored : Memory.wf s.dma.data ∧ Memory.below s.dma.data 37632
  /-- R37: the ranges of the read parameters. -/
  readRange : s.readParams.startSector + s.readParams.remaining < 2 ^ 25 ∧ s.readParams.remaining < 2 ^ 24
  /-- R391: with no read and no data phase going on, the PioBuffer is drained. -/
  pioDrained : s.state = .waitcmd ∨ s.state = .waitpacket ∨ s.state = .readsectorDma → s.pio.cursor = s.pio.size
  /-- R391: with no command outstanding the read parameters and the limit are clear. -/
  readCleared : s.state = .waitcmd ∨ s.state = .waitpacket → s.readParams = ReadParams.cleared ∧ s.pioLimit = 0
  /-- R190: the continuations of the two data phases. -/
  continuations : (s.state = .pioSendData → s.pio.nextState = .pioEnd ∨ s.pio.nextState = .readsectorPio) ∧
    (s.state = .pioGetData → s.pio.nextState = .processSetMode)
  /-- Only a sector read leaves bytes in the DmaBuffer. -/
  dmaOwned : (s.state = .pioSendData ∧ s.pio.nextState = .pioEnd) ∨ s.state = .pioGetData → s.dma.cursor = s.dma.size
  /-- R286: a PIO read goes on with a limit of at least 2. -/
  limitUsable : s.readingByPio → 2 ≤ s.pioLimit.toNat
  /-- R286: a read goes on with a descriptor that has a size. -/
  descriptorSized : s.readingByPio ∨ s.state = .readsectorDma → (sectorSize s.cfg s.readParams.sectorType).isSome = true
  /-- R292: what a PIO read has left in the DmaBuffer is an even number of bytes. -/
  batchEven : s.readingByPio → (s.dma.size - s.dma.cursor) % 2 = 0
  /-- R191: DRDY in each stable state. -/
  readyIdle : s.drdy = true ↔ s.state = .waitcmd
  /-- R191: CoD and IO in each stable state but `gds_waitcmd`. -/
  reasonPhase : (s.state = .waitpacket ∨ s.state = .readsectorDma → s.cod = true ∧ s.io = false) ∧
    (s.state = .pioSendData → s.cod = false ∧ s.io = true) ∧ (s.state = .pioGetData → s.cod = false ∧ s.io = false)

/-- The machine right after power-on with a configuration and the operations its agents will apply (R391). -/
def startState (c : Config) (ops : List Input) : State :=
  { State.reset with cfg := c, hwInfo := c.hwInfoReset, inbox := ops }

/-- The states of a run (R391): from a hard reset or a restored snapshot (R51) under the same configuration, with whatever
operations the agents choose to apply next. -/
inductive Reachable : State → Prop where
  | start (c : Config) (ops : List Input) (h : c.sized) : Reachable (startState c ops)
  | restored {now saved : State} (hn : Reachable now) (hs : Reachable saved) (hc : saved.cfg = now.cfg) :
      Reachable (State.restore now saved)
  | applying {s : State} (ops : List Input) (h : Reachable s) : Reachable { s with inbox := ops }
  | next {s t : State} (h : Reachable s) (hs : step s = .next t) : Reachable t

/-- A run, finite or not (R391): `ops n` is the operation the agents apply at moment `n`, if any, with the provider's answers;
`states n` is the machine before it. A run is over when no further operation is applied. -/
structure Run (ops : Nat → Option Input) (states : Nat → State) : Prop where
  /-- It starts with a hard reset, or from a snapshot restored into a machine of the same configuration. -/
  starts : (∃ c : Config, c.sized ∧ states 0 = startState c []) ∨
    ∃ now saved : State, Reachable now ∧ Reachable saved ∧ saved.cfg = now.cfg ∧ states 0 = State.restore now saved
  /-- An operation is applied whole and alone. -/
  goes : ∀ n x, ops n = some x → step { states n with inbox := [x] } = .next (states (n + 1))
  /-- Without one nothing changes (R10). -/
  waits : ∀ n, ops n = none → states (n + 1) = states n

/-- The misuse reasons that an agent's operation can raise (the last column of R350's table). -/
def Misuse.byAgent : Misuse → Bool
  | .commandWhileBusy => true
  | .dataReadNoPhase => true
  | .dataWriteNoPhase => true
  | .packetOverrun => true
  | .badAccessSize => true
  | .pioLimitTooSmall => true
  | .dmaPullNoPhase => true
  | .dmaReadPastEnd => true
  | .pioOverCapacity => false
  | .pioReadPastEnd => false
  | .pioWritePastEnd => false
  | .dmaFillNotEmpty => false


/-! ## The terms statements are made in -/

/-- The returned value is one of an access of `n` bytes: a byte, a word, or that many bytes (R350: any value of its width). -/
def Returned.ofSize (n : Nat) : Returned → Prop
  | .byte _ => n = 1
  | .word _ => n = 2
  | .bytes v => n ≠ 1 ∧ n ≠ 2 ∧ v.length = n
  | .count _ => False

/-- A packet is awaited and none of its bytes is in, as `enter(gds_waitpacket)` leaves it (R172). -/
abbrev State.awaiting (s : State) : Prop := s.live ∧ s.state = .waitpacket ∧ s.packet.index = 0

/-- The operation writes the command code to the COMMAND register: as the command's own operation, or as the plain register
write with the code in its low byte (R10, R121). -/
def writesCommand (code : Byte) (i : Instr) : Prop :=
  i = decodeAta code ∨ ∃ v : Half, v.extractLsb' 0 8 = code ∧ i = .wCommand 1 v

/-- Operations applied one after another, as far as each gives a next state (R110). -/
def execAll : List Instr → State → Result
  | [], s => .next s
  | i :: rest, s =>
    match exec i s with
    | .next t => execAll rest t
    | .fault f => .fault f
    | .refused r => .refused r

/-- The first `k` words read from the PioBuffer one after another, with the state they leave (R84). -/
def takeWords : Nat → State → Option (List Half × State)
  | 0, s => some ([], s)
  | k + 1, s =>
    match takeWords k s with
    | none => none
    | some (ws, t) =>
      match pioRead t with
      | .ok (w, u) => some (ws ++ [w], u)
      | .error _ => none

/-- What the operation has shown grows by queries and interrupts; the returned value stays (R391). -/
abbrev Shows (asked : List Query) (irqs : List IrqKind) (s t : State) : Prop :=
  t.obs = { s.obs with queries := s.obs.queries ++ asked, irqs := s.obs.irqs ++ irqs }

/-- A command or a read has ended (R177): idle, BSY 0 and DRQ 0 with the bits `set` besides, CoD and IO 1, the read parameters
and the limit clear, one interrupt of the kind. -/
structure CommandEnds (set : Byte) (kind : IrqKind) (asked : List Query) (s t : State) : Prop where
  idle : t.state = .waitcmd
  status : t.status = (s.status &&& 0x77#8) ||| set
  reason : t.intReason = s.intReason ||| 0x03#8
  cleared : t.readParams = { startSector := 0, remaining := 0, sectorType := 0 } ∧ t.pioLimit = 0
  request : t.intrq = true
  shown : Shows asked [kind] s t

/-- A packet command or a read has failed (R345): ended with CHECK and the `Error` interrupt, the sense triple and the whole
error register written, both buffers cleared. -/
structure CommandFails (key : BitVec 4) (asc : Byte) (error : Byte) (asked : List Query) (s t : State) : Prop where
  ends : CommandEnds 0x41#8 .error asked s t
  sense : t.sense = { key := key, asc := asc, ascq := 0x00 }
  errorRegister : t.error = error
  pioCleared : t.pio = { s.pio with cursor := 0, size := 0, nextState := .pioEnd }
  dmaCleared : t.dma = { s.dma with cursor := 0, size := 0 }

/-- A refill has failed (R290) after the queries `asked`: medium-error with the disc there, not-ready without it; `present` is
what the provider answers when it is asked for that. -/
def ReadFails (present : Bool) (asked : List Query) (s t : State) : Prop :=
  (s.trayOpen = false ∧ present = true → CommandFails 0x3 0x11 0x30 (asked ++ [.isDiscPresent]) s t) ∧
  (s.trayOpen = false ∧ present = false → CommandFails 0x2 0x3A 0x20 (asked ++ [.isDiscPresent]) s t) ∧
  (s.trayOpen = true → CommandFails 0x2 0x3A 0x20 asked s t)

/-- A data phase to the host is open over `bytes` (R83, R174, R181): the state, DRQ 1 and BSY 0 with the status bits of `keep`
left, IO 1 and CoD 0, the size in the byte count and in the PioBuffer, the bytes in its words in order, every byte above left. -/
structure PhaseToHost (bytes : List Byte) (keep : Byte) (next : GdState) (asked : List Query) (s t : State) : Prop where
  phase : t.state = .pioSendData
  status : t.status = (s.status &&& keep) ||| 0x08#8
  reason : t.intReason = (s.intReason &&& 0xFC#8) ||| 0x02#8
  posted : t.byteCount.toNat = (2 * ((bytes.length + 1) / 2)) % 65536
  buffer : t.pio.cursor = 0 ∧ t.pio.size = (bytes.length + 1) / 2 ∧ t.pio.nextState = next
  loaded : ∀ a, a < bytes.length → Memory.read t.pio.data a = bytes.getD a 0
  padded : bytes.length % 2 = 1 → Memory.read t.pio.data bytes.length = 0
  above : ∀ a, 2 * ((bytes.length + 1) / 2) ≤ a → Memory.read t.pio.data a = Memory.read s.pio.data a
  request : t.intrq = true
  shown : Shows asked [.dataRequest] s t

/-- A packet's response of `bytes` (R181): a data phase, or a plain completion when there is none. -/
def PacketResponds (bytes : List Byte) (keep : Byte) (asked : List Query) (s t : State) : Prop :=
  (bytes = [] → CommandEnds 0x40#8 .complete asked { s with status := s.status &&& keep } t ∧ t.pio = s.pio ∧
    t.byteCount = s.byteCount) ∧
  (bytes ≠ [] → PhaseToHost bytes keep .pioEnd asked s t ∧ t.readParams = s.readParams ∧ t.pioLimit = s.pioLimit)

/-- A frame address from three position bytes as a number (R131): minute, second and frame, or big-endian. -/
def frameAddress (msf : Bool) (x y z : Byte) : Nat :=
  if msf then (x.toNat * 60 + y.toNat) * 75 + z.toNat else x.toNat * 65536 + y.toNat * 256 + z.toNat

/-- The parameter type of a positioning command as a number: `b[1][2:0]` (R136 to R138). -/
def paramType (p : Params) : Nat := p.b1.toNat % 8

/-- The first position of a positioning packet (R268, R270, R274). -/
def targetAddress (p : Params) : Nat := frameAddress (paramType p == 2) p.b2 p.b3 p.b4

/-- The end position of a CD_PLAY packet (R268). -/
def endAddress (p : Params) : Nat := frameAddress (paramType p == 2) p.b8 p.b9 p.b10

/-- The drive is ready (R102) at the operation's first question. -/
abbrev State.ready (s : State) : Prop := s.trayOpen = false ∧ s.answers.present = true

/-- The core's TOC query answers `t` (R104): from the cache, or from the provider with a well-formed record. -/
abbrev State.hasToc (s : State) (t : Toc) : Prop :=
  s.tocCache = some t ∨ (s.tocCache = none ∧ s.answers.toc = some t ∧ tocValid t = true)

/-- The core's TOC query answers `error` (R104); a TOC malformed only in its disc_format is one such by log entry 16. -/
abbrev State.lacksToc (s : State) : Prop :=
  s.tocCache = none ∧ ∀ t, s.answers.toc = some t → tocValid t = false

/-- The provider queries of an operation that asks for the disc and then for the TOC (R100, R104). -/
def tocQueries (s : State) : List Query :=
  if s.tocCache = none then [.isDiscPresent, .getTOC] else [.isDiscPresent]

/-- The sector-number register with a unit status and the DiscFormat of the TOC just queried (R46): a cached TOC leaves it. -/
def sectNumWith (unit : BitVec 4) (t : Toc) (s : State) : Byte :=
  (if s.tocCache = none then t.discFormat else s.discFormat) ++ unit

/-- The control and address byte, the track number and the index of the track under a frame (R224, R248). -/
def underTrack (found : Option (Nat × Track)) : List Byte :=
  match found with
  | some (k, e) => [e.ctrl ++ e.adr, BitVec.ofNat 8 k, 0x01]
  | none => [0x00, 0x00, 0x00]

/-- The operation is a sector read of `count` sectors (R284, R285) with its opcode. -/
def readsSectors (i : Instr) (opcode : Byte) (p : Params) (count : Nat) : Prop :=
  (i = .cdRead p ∧ opcode = 0x30#8 ∧ count = p.b8.toNat * 65536 + p.b9.toNat * 256 + p.b10.toNat) ∨
  (i = .cdRead2 p ∧ opcode = 0x31#8 ∧ count = p.b6.toNat * 256 + p.b7.toNat)

/-- The first sector of a sector read (R139, R286). -/
def readAddress (p : Params) : Nat := frameAddress (p.b1.toNat % 2 == 1) p.b2 p.b3 p.b4

/-- The stable states that a packet of opcode `opcode` can end in: the rows of R190 from `gds_procpacket`, joined across the
transient states. -/
def packetRow (opcode : Byte) (dmaEnable : Bool) (b : GdState) : Prop :=
  match spiOp opcode with
  | .testUnit => b = .waitcmd
  | .cdOpen => b = .waitcmd
  | .cdPlay => b = .waitcmd
  | .cdSeek => b = .waitcmd
  | .cdScan => b = .waitcmd
  | .other => b = .waitcmd
  | .setMode => b = .waitcmd ∨ b = .pioGetData
  | .cdRead => b = .waitcmd ∨ (dmaEnable = false ∧ b = .pioSendData) ∨ (dmaEnable = true ∧ b = .readsectorDma)
  | .cdRead2 => b = .waitcmd ∨ (dmaEnable = false ∧ b = .pioSendData) ∨ (dmaEnable = true ∧ b = .readsectorDma)
  | .reqStat => b = .waitcmd ∨ b = .pioSendData
  | .reqMode => b = .waitcmd ∨ b = .pioSendData
  | .reqError => b = .waitcmd ∨ b = .pioSendData
  | .getToc => b = .waitcmd ∨ b = .pioSendData
  | .reqSes => b = .waitcmd ∨ b = .pioSendData
  | .getScd => b = .waitcmd ∨ b = .pioSendData

/-- The row of a packet operation: its own opcode's where it is awaited; elsewhere that of its DATA writes (log entry 12), which
end the packet begun in the accumulator or drain the SET_MODE block. -/
def packetOperationRow (opcode : Byte) (s : State) (b : GdState) : Prop :=
  (s.state = .waitpacket ∧ s.packet.index = 0 ∧ packetRow opcode s.dmaEnable b) ∨
  (s.state = .waitpacket ∧ s.packet.index ≠ 0 ∧ packetRow (s.packet.b.getD 0 0) s.dmaEnable b) ∨
  (s.state = .pioGetData ∧ b = .waitcmd)

/-- Which stable state can follow `s`, per operation: the rows of R190 joined across the transient states, for an operation that
is applied and changes the state. The opcode 0xFF stands for every unrecognized one. -/
def transitionRow (i : Instr) (s : State) (b : GdState) : Prop :=
  match i with
  | .hardReset => b = .waitcmd
  | .softReset => b = .waitcmd
  | .wCommand _ v => (v.extractLsb' 0 8 = 0x08#8 ∧ b = .waitcmd) ∨
      (v.extractLsb' 0 8 = 0xA0#8 ∧ s.state = .waitcmd ∧ b = .waitpacket) ∨
      ((v.extractLsb' 0 8 = 0xA1#8 ∨ v.extractLsb' 0 8 = 0xEC#8) ∧ s.state = .waitcmd ∧ b = .pioSendData)
  | .spiPacket => s.state = .waitcmd ∧ b = .waitpacket
  | .identifyDevice => s.state = .waitcmd ∧ b = .pioSendData
  | .identify => s.state = .waitcmd ∧ b = .pioSendData
  | .rData _ => s.state = .pioSendData ∧ b = .waitcmd
  | .wData n _ => (s.state = .waitpacket ∧ s.packet.index + n = 12 ∧ packetRow (s.packet.b.getD 0 0) s.dmaEnable b) ∨
      (s.state = .pioGetData ∧ b = .waitcmd)
  | .dmaPull _ => s.state = .readsectorDma ∧ b = .waitcmd
  | .testUnit _ => packetOperationRow 0x00 s b
  | .reqStat _ => packetOperationRow 0x10 s b
  | .reqMode _ => packetOperationRow 0x11 s b
  | .setMode _ => packetOperationRow 0x12 s b
  | .reqError _ => packetOperationRow 0x13 s b
  | .getToc _ => packetOperationRow 0x14 s b
  | .reqSes _ => packetOperationRow 0x15 s b
  | .cdOpen _ => packetOperationRow 0x16 s b
  | .cdPlay _ => packetOperationRow 0x20 s b
  | .cdSeek _ => packetOperationRow 0x21 s b
  | .cdScan _ => packetOperationRow 0x22 s b
  | .cdRead _ => packetOperationRow 0x30 s b
  | .cdRead2 _ => packetOperationRow 0x31 s b
  | .getScd _ => packetOperationRow 0x40 s b
  | .spiUnrecognized _ _ => packetOperationRow 0xFF s b
  | .rError _ => False
  | .rIntreason _ => False
  | .rSectnum _ => False
  | .rBclow _ => False
  | .rBchigh _ => False
  | .rDrivesel _ => False
  | .rStatus _ => False
  | .wFeatures _ _ => False
  | .wSectcount _ _ => False
  | .wSectnum _ _ => False
  | .wBclow _ _ => False
  | .wBchigh _ _ => False
  | .wDrivesel _ _ => False
  | .nop => False
  | .execDiag => False
  | .setFeatures => False
  | .ataUnknown _ => False
  | .dmaAvail => False
  | .cddaAdvance => False
  | .trayClose => False

/-- The operations that may clear the pending error (R346): REQ_ERROR, however its bytes arrive, and the resets. -/
def collectsError (i : Instr) (s : State) : Prop :=
  match i with
  | .hardReset => True
  | .softReset => True
  | .execDiag => True
  | .wCommand _ v => v.extractLsb' 0 8 = 0x08#8 ∨ v.extractLsb' 0 8 = 0x90#8
  | .reqError _ => True
  | .wData _ _ => s.state = .waitpacket ∧ s.packet.b.getD 0 0 = 0x13#8
  | i => isPacket i = true ∧ s.state = .waitpacket ∧ s.packet.b.getD 0 0 = 0x13#8 ∧ s.packet.index ≠ 0

/-- The operations that may write `S.cdda` (R42, R276, R280): the playback packets, however their bytes arrive, CD_OPEN, the
advance step and the resets. -/
def movesAudio (i : Instr) (s : State) : Prop :=
  match i with
  | .hardReset => True
  | .softReset => True
  | .execDiag => True
  | .wCommand _ v => v.extractLsb' 0 8 = 0x08#8 ∨ v.extractLsb' 0 8 = 0x90#8
  | .cddaAdvance => True
  | .cdOpen _ => True
  | .cdPlay _ => True
  | .cdSeek _ => True
  | .cdScan _ => True
  | .wData _ _ => s.state = .waitpacket ∧ s.packet.b.getD 0 0 ∈ [0x16#8, 0x20#8, 0x21#8, 0x22#8]
  | i => isPacket i = true ∧ s.state = .waitpacket ∧ s.packet.index ≠ 0 ∧
      s.packet.b.getD 0 0 ∈ [0x16#8, 0x20#8, 0x21#8, 0x22#8]

end Sys2Proof.Machine
end

