-- ==== Sys2Proof/Certificates/Slice0/Obligations.lean ====
section
/-! DEFINITION. The statements about this model, each a proposition for the provers. -/

open Sys2Proof Sys2Proof.Machine

/-- A step applies the operation that the oldest input's record decodes to. R10, R110: one operation at a time, in the order the agents apply them; the queue and its records are the model's own (log entries 1, 3, 4, 8). -/
def Obligations.StepRunsTheDecodedOperation : Prop :=
  ∀ s : State,
    (s.inbox = [] → step s = .next s) ∧
    ∀ (x : Input) (rest : List Input), s.inbox = x :: rest →
      (∀ i, decode x.record = .ok i →
        step s = exec i { s with inbox := rest, answers := x.answers, obs := { returned := none, irqs := [], queries := [] } }) ∧
      (∀ e, decode x.record = .error e → step s = .refused (.malformedRecord e))

/-- Records written out from the spec's code tables decode to the operations they stand for. R120, R123, R124, R125: codes, selectors, opcodes and the place of the packet bytes. The record around them is the model's own (log entry 1). -/
def Obligations.HandWrittenRecordsDecode : Prop :=
  decode [0x05, 0x01, 0x01] = .ok (.rBchigh 1) ∧
  decode [0x07, 0x02, 0x01, 0xA0, 0x00] = .ok (.wCommand 1 0x00A0) ∧
  decode [0x00, 0x02, 0x02, 0x30, 0x24] = .ok (.wData 2 0x2430) ∧
  decode [0xEF, 0x03] = .ok .setFeatures ∧
  decode [0x20, 0x03] = .ok (.ataUnknown 0x20) ∧
  decode [0x30, 0x04, 0x24, 0x00, 0x00, 0x96, 0x00, 0x00, 0x00, 0x00, 0x00, 0x11, 0x00] =
    .ok (.cdRead ⟨0x24, 0x00, 0x00, 0x96, 0x00, 0x00, 0x00, 0x00, 0x00, 0x11, 0x00⟩) ∧
  decode [0x20, 0x04, 0x01, 0x00, 0x03, 0xE8, 0x00, 0x01, 0x00, 0x00, 0x03, 0xF2, 0x00] =
    .ok (.cdPlay ⟨0x01, 0x00, 0x03, 0xE8, 0x00, 0x01, 0x00, 0x00, 0x03, 0xF2, 0x00⟩) ∧
  decode [0x70, 0x04, 0x01, 0x02, 0x03, 0x04, 0x05, 0x06, 0x07, 0x08, 0x09, 0x0A, 0x0B] =
    .ok (.spiUnrecognized 0x70 ⟨0x01, 0x02, 0x03, 0x04, 0x05, 0x06, 0x07, 0x08, 0x09, 0x0A, 0x0B⟩) ∧
  decode [0x01, 0x05, 0x00, 0x80, 0x00, 0x00] = .ok (.dmaPull 32768) ∧
  decode [0x04, 0x05] = .ok .hardReset

/-- Decoding the record of any well-formed operation gives that operation back. The encoder and the decoder of every row of the opcode table agree (R146), the two catch-all rows included (R122, R126). -/
def Obligations.DecodeOfEncodeIsTheOperation : Prop :=
  ∀ i : Instr, i.wellFormed = true → decode (encode i) = .ok i

/-- Every step that goes on keeps the invariant. R49 (all eleven items), R22, R191 and the ranges of the fields' own rules, over all states and all operations. That no TOC with a disc_format other than 0, 1, 2, 3 and 8 is cached, and so that the register holds one of these codes (Inv's formatCodes, and cacheValid in this respect), is the model's inference and not R30's or R101's words (log entry 16). -/
def Obligations.EveryStepKeepsTheInvariant : Prop :=
  ∀ s t : State, Inv s → step s = .next t → Inv t

/-- The reset state, every start state and every restored snapshot have the invariant. R50: the reset values keep R49. R391: a run starts with HardReset or from a restored snapshot (R51). That the drive is empty at reset and that the operations to come stand in State are the model's choices (log entries 10 and 3). -/
def Obligations.StartStatesHaveTheInvariant : Prop :=
  Inv State.reset ∧ (∀ (c : Config) (ops : List Input), c.sized → Inv (startState c ops)) ∧
  (∀ now saved : State, Inv saved → saved.cfg = now.cfg → Inv (State.restore now saved)) ∧
  (∀ (s : State) (ops : List Input), Inv s → Inv { s with inbox := ops })

/-- The four internal misuse reasons are never recorded. R350: the reasons whose last column says no. A model can prove them unreachable, the rule says; this is that proof's statement. -/
def Obligations.OnlyAgentsMisuse : Prop :=
  ∀ (s t : State) (r : Misuse), Inv s → s.misuse = none → step s = .next t → t.misuse = some r → r.byAgent = true

/-- Every change of the controller state is a row of the transition table. R190: every change of S.state is one of its rows. The premise keeps the unknown-code row to its own codes (R122), as decoding does; every access size, value, pull length and packet opcode is admitted. What a packet operation is where no packet is awaited is the model's own (log entry 12). -/
def Obligations.StateChangesFollowTheTable : Prop :=
  ∀ (i : Instr) (s t : State), (∀ code, i = .ataUnknown code → code ∉ ataCodes) → Inv s → exec i s = .next t →
    t.state = s.state ∨ transitionRow i s t.state

/-- An operation raises at most one interrupt, and INTRQ moves only as the rules say. R341: every operation emits at most one event. R35: INTRQ is set by every raise, cleared by the status read and by reset. A packet taken elsewhere is six operations (log entry 12). -/
def Obligations.AtMostOneInterrupt : Prop :=
  ∀ (i : Instr) (s t : State), (isPacket i = true → s.awaiting) → exec i s = .next t →
    (∃ k, t.obs.irqs = s.obs.irqs ++ [k] ∧ t.intrq = true) ∨
    (t.obs.irqs = s.obs.irqs ∧ (t.intrq = s.intrq ∨ (t.intrq = false ∧ (i = .rStatus 1 ∨ i = .hardReset))))

/-- Only a failure writes the pending error and only REQ_ERROR and the resets clear it. R346: the pending error from a failure until it is collected. -/
def Obligations.PendingErrorIsSticky : Prop :=
  ∀ (i : Instr) (s t : State), Inv s → exec i s = .next t →
    (t.sense = s.sense ∧ t.error = s.error ∧ t.check = s.check) ∨
    (t.sense.key ≠ 0 ∧ t.check = true ∧ IrqKind.error ∈ t.obs.irqs) ∨
    (collectsError i s ∧ t.sense = { key := 0, asc := 0, ascq := 0 } ∧ t.error = 0x00 ∧ t.check = false)

/-- No operation changes the configuration or the operations still waiting. R52: cfg and the provider are parameters of the step, not fields of S. That they stand in the model's State is log entries 3 and 5. -/
def Obligations.ConfigurationNeverChanges : Prop :=
  ∀ (i : Instr) (s t : State), exec i s = .next t → t.cfg = s.cfg ∧ t.inbox = s.inbox

/-- Only the five writable bytes of the hardware-info block ever change between power-on resets. R44: the column 'Writable by SET_MODE'. -/
def Obligations.FixedIdentificationBytesStay : Prop :=
  ∀ (i : Instr) (s t : State), i ≠ .hardReset → s.hwInfo.length = 32 → exec i s = .next t →
    t.hwInfo.length = 32 ∧
    ∀ k, k ≠ 2 → k ≠ 4 → k ≠ 5 → k ≠ 6 → k ≠ 9 → t.hwInfo.getD k 0 = s.hwInfo.getD k 0

/-- No operation but the playback packets, CD_OPEN, the advance step and the resets writes S.cdda. R280: the CDDA state is mutated only by playback-control opcodes and by the advance step; R42, R276 add CD_OPEN and the resets. -/
def Obligations.OnlyPlaybackMovesTheAudioState : Prop :=
  ∀ (i : Instr) (s t : State), Inv s → exec i s = .next t → ¬ movesAudio i s → t.cdda = s.cdda

/-- Every chunk a PIO sector read offers is even, within the limit and within 2..65534, and its size is posted exactly. R292, derived there from R283, R286 and R291. -/
def Obligations.ChunksAreEvenAndFit : Prop :=
  ∀ (i : Instr) (s t : State), Inv s → exec i s = .next t → t.obs.irqs ≠ s.obs.irqs → t.readingByPio →
    t.byteCount.toNat = 2 * t.pio.size ∧ 2 ≤ t.byteCount.toNat ∧ t.byteCount.toNat ≤ 65534 ∧ t.byteCount.toNat ≤ t.pioLimit.toNat

/-- Once a misuse or a refusal is recorded every operation but HardReset ends the run. R350: a model treats the run as ended. The two faults are the model's (log entry 14). -/
def Obligations.AfterMisuseOnlyHardReset : Prop :=
  (∀ (i : Instr) (s : State) (r : Misuse), i ≠ .hardReset → s.misuse = some r → exec i s = .fault (.afterMisuse r)) ∧
  (∀ (i : Instr) (s : State) (r : RefuseReason), i ≠ .hardReset → s.misuse = none → s.refused = some r →
    exec i s = .fault (.afterRefusal r)) ∧
  (∀ s : State, ∃ t, exec .hardReset s = .next t ∧ t.misuse = none ∧ t.refused = none)

/-- The six plain register reads return their shadow and change nothing. R161, its example included. -/
def Obligations.PlainRegisterReads : Prop :=
  (∀ s : State, s.live →
    exec (.rError 1) s = .next { s with obs := { s.obs with returned := some (.byte s.error) } } ∧
    exec (.rIntreason 1) s = .next { s with obs := { s.obs with returned := some (.byte s.intReason) } } ∧
    exec (.rSectnum 1) s = .next { s with obs := { s.obs with returned := some (.byte s.sectNum) } } ∧
    exec (.rBclow 1) s = .next { s with obs := { s.obs with returned := some (.byte (s.byteCount.extractLsb' 0 8)) } } ∧
    exec (.rBchigh 1) s = .next { s with obs := { s.obs with returned := some (.byte (s.byteCount.extractLsb' 8 8)) } } ∧
    exec (.rDrivesel 1) s = .next { s with obs := { s.obs with returned := some (.byte s.driveSel) } }) ∧
  (∀ s : State, s.answers.present = true → ∃ t u, exec .hardReset s = .next t ∧ exec (.rSectnum 1) t = .next u ∧
    u.obs.returned = some (.byte 0x02))

/-- A status read returns the status and clears INTRQ, nothing else. R162. -/
def Obligations.StatusReadWithdrawsTheRequest : Prop :=
  ∀ s : State, s.live →
    exec (.rStatus 1) s = .next { s with intrq := false, obs := { s.obs with returned := some (.byte s.status) } }

/-- The six plain register writes store their shadow and nothing else; a write of SECTNUM changes nothing. R163, its example included: no state, BSY 1 among them, stops the write, and the PioBuffer's size is not touched. -/
def Obligations.PlainRegisterWrites : Prop :=
  (∀ (s : State) (v : Half), s.live →
    exec (.wFeatures 1 v) s = .next { s with features := v.extractLsb' 0 8 } ∧
    exec (.wSectcount 1 v) s = .next { s with sectCount := v.extractLsb' 0 8 } ∧
    exec (.wSectnum 1 v) s = .next s ∧
    (∃ t, exec (.wBclow 1 v) s = .next t ∧ t = { s with byteCount := t.byteCount } ∧
      t.byteCount.extractLsb' 0 8 = v.extractLsb' 0 8 ∧ t.byteCount.extractLsb' 8 8 = s.byteCount.extractLsb' 8 8) ∧
    (∃ t, exec (.wBchigh 1 v) s = .next t ∧ t = { s with byteCount := t.byteCount } ∧
      t.byteCount.extractLsb' 8 8 = v.extractLsb' 0 8 ∧ t.byteCount.extractLsb' 0 8 = s.byteCount.extractLsb' 0 8) ∧
    exec (.wDrivesel 1 v) s = .next { s with driveSel := v.extractLsb' 0 8 }) ∧
  (∀ s : State, s.live → execAll [.wBclow 1 0x0000, .wBchigh 1 0x0008] s = .next { s with byteCount := 0x0800 })

/-- A DATA read returns the word at the cursor, and the one that drains a response completes the command. R164 with R84, R96, R176 and R177. -/
def Obligations.DataReadTakesTheNextWord : Prop :=
  (∀ s : State, s.live → s.state = .pioSendData → s.pio.cursor + 1 < s.pio.size →
    exec (.rData 2) s = .next { s with
      pio := { s.pio with cursor := s.pio.cursor + 1 }
      obs := { s.obs with returned := some (.word
                          (Memory.read s.pio.data (2 * s.pio.cursor + 1) ++ Memory.read s.pio.data (2 * s.pio.cursor))) } }) ∧
  (∀ s : State, s.live → s.state = .pioSendData → s.pio.cursor + 1 = s.pio.size → s.pio.nextState = .pioEnd →
    ∃ t, exec (.rData 2) s = .next t ∧
      CommandEnds 0x40#8 .complete [] (s.returning (.word
        (Memory.read s.pio.data (2 * s.pio.cursor + 1) ++ Memory.read s.pio.data (2 * s.pio.cursor)))) t ∧
      t = { s with state := t.state, status := t.status, intReason := t.intReason, readParams := t.readParams,
                   pioLimit := t.pioLimit, intrq := t.intrq, obs := t.obs, pio := { s.pio with cursor := s.pio.cursor + 1 } })

/-- Exactly as many DATA reads as there are words left complete a response, and one more is a misuse. R382: the host reads exactly the posted size; one access more is a misuse. -/
def Obligations.ResponseTakesExactlyItsWords : Prop :=
  ∀ s : State, s.live → s.state = .pioSendData → s.pio.cursor < s.pio.size → s.pio.nextState = .pioEnd →
    ∃ t u, execAll (List.replicate (s.pio.size - s.pio.cursor) (.rData 2)) s = .next t ∧
      t.state = .waitcmd ∧ t.drq = false ∧ t.pio.cursor = t.pio.size ∧ t.obs.irqs = s.obs.irqs ++ [.complete] ∧ t.live ∧
      exec (.rData 2) t = .next u ∧ u.misuse = some .dataReadNoPhase ∧ u.state = .waitcmd ∧ u.pio = t.pio

/-- The DATA read that drains a chunk of a sector read offers the next chunk, completes or fails. R164 with R291, R91 and R290. That an open tray is found without asking the provider is log entry 11. -/
def Obligations.LastWordOfAChunkGoesOn : Prop :=
  ∀ s : State, s.live → s.state = .pioSendData → s.pio.cursor + 1 = s.pio.size → s.pio.nextState = .readsectorPio →
    let w : Half := Memory.read s.pio.data (2 * s.pio.cursor + 1) ++ Memory.read s.pio.data (2 * s.pio.cursor)
    let r : State := { s.returning (.word w) with pio := { s.pio with cursor := s.pio.cursor + 1 } }
    let lim := 2 * (s.pioLimit.toNat / 2)
    let n := min 16 s.readParams.remaining
    (s.dma.cursor < s.dma.size → 2 ≤ lim → ∃ t bytes, exec (.rData 2) s = .next t ∧
      bytes.length = min lim (s.dma.size - s.dma.cursor) ∧
      (∀ i, i < bytes.length → bytes.getD i 0 = Memory.read s.dma.data (s.dma.cursor + i)) ∧
      PhaseToHost bytes 0x77#8 .readsectorPio [] r t ∧
      t = { s with state := t.state, status := t.status, intReason := t.intReason, byteCount := t.byteCount, intrq := t.intrq,
                   obs := t.obs, pio := t.pio, dma := { s.dma with cursor := s.dma.cursor + bytes.length } }) ∧
    (s.dma.cursor = s.dma.size → s.readParams.remaining = 0 → ∃ t, exec (.rData 2) s = .next t ∧
      CommandEnds 0x40#8 .complete [] r t ∧
      t = { s with state := t.state, status := t.status, intReason := t.intReason, readParams := t.readParams,
                   pioLimit := t.pioLimit, intrq := t.intrq, obs := t.obs, pio := r.pio }) ∧
    (∀ size sectors, s.dma.cursor = s.dma.size → 0 < s.readParams.remaining → 2 ≤ lim →
      sectorSize s.cfg s.readParams.sectorType = some size → s.answers.sectors = some sectors → sectors.length = n * size →
      ∃ t, exec (.rData 2) s = .next t ∧
        PhaseToHost (sectors.take lim) 0x77#8 .readsectorPio
          [.readSectors s.readParams.startSector n s.readParams.sectorType] r t ∧
        t.dma.cursor = min lim (n * size) ∧ t.dma.size = n * size ∧
        (∀ a, a < n * size → Memory.read t.dma.data a = sectors.getD a 0) ∧
        (∀ a, n * size ≤ a → Memory.read t.dma.data a = Memory.read s.dma.data a) ∧
        t.readParams.startSector = s.readParams.startSector + n ∧ t.readParams.remaining = s.readParams.remaining - n ∧
        t.readParams.sectorType = s.readParams.sectorType ∧
        t = { s with state := t.state, status := t.status, intReason := t.intReason, byteCount := t.byteCount, intrq := t.intrq,
                     obs := t.obs, pio := t.pio, dma := t.dma, readParams := t.readParams }) ∧
    (∀ size, s.dma.cursor = s.dma.size → 0 < s.readParams.remaining →
      sectorSize s.cfg s.readParams.sectorType = some size →
      (∀ sectors, s.answers.sectors = some sectors → sectors.length ≠ n * size) →
      ∃ t, exec (.rData 2) s = .next t ∧
        ReadFails s.answers.present [.readSectors s.readParams.startSector n s.readParams.sectorType] r t ∧
        t = { s with state := t.state, status := t.status, error := t.error, sense := t.sense, intReason := t.intReason,
                     readParams := t.readParams, pioLimit := t.pioLimit, intrq := t.intrq, obs := t.obs, pio := t.pio,
                     dma := t.dma, answers := t.answers })

/-- A register access of the wrong size and a command while one is outstanding are not applied and recorded. R97, R169, R350. A COMMAND write of the wrong size is BadAccessSize even while a command is outstanding: log entry 13. What a misused read returns is a free value (log entry 7). -/
def Obligations.RegisterPortMisuse : Prop :=
  ((∀ (i : Instr) (n : Nat) (s : State), s.live → n ≠ 1 →
    (i = .rError n ∨ i = .rIntreason n ∨ i = .rSectnum n ∨ i = .rBclow n ∨ i = .rBchigh n ∨ i = .rDrivesel n ∨ i = .rStatus n) →
    ∃ t r, exec i s = .next t ∧ t.obs.returned = some r ∧ r.ofSize n ∧ t = { s with
      misuse := some .badAccessSize, freeCount := t.freeCount, obs := { s.obs with returned := t.obs.returned } }) ∧
  (∀ (i : Instr) (n : Nat) (v : Half) (s : State), s.live → n ≠ 1 →
    (i = .wFeatures n v ∨ i = .wSectcount n v ∨ i = .wSectnum n v ∨ i = .wBclow n v ∨ i = .wBchigh n v ∨ i = .wDrivesel n v ∨
      i = .wCommand n v) →
    exec i s = .next { s with misuse := some .badAccessSize })) ∧
  (∀ (code : Byte) (i : Instr) (s : State), writesCommand code i → code ≠ 0x08#8 → s.live → s.state ≠ .waitcmd →
    exec i s = .next { s with misuse := some .commandWhileBusy })

/-- A DATA access or a pull outside its phase, of the wrong size or past its end is not applied and recorded. R165, R166, R168, R297. Where two reasons apply to one access the order of the tests is the model's (log entry 13); what a misused read or pull returns is a free value (log entry 7). -/
def Obligations.DataPortMisuse : Prop :=
  ((∀ (n : Nat) (s : State), s.live → s.state ≠ .pioSendData → ∃ t r, exec (.rData n) s = .next t ∧
    t.obs.returned = some r ∧ r.ofSize n ∧
    t = { s with misuse := some .dataReadNoPhase, freeCount := t.freeCount, obs := { s.obs with returned := t.obs.returned } }) ∧
  (∀ (n : Nat) (s : State), s.live → s.state = .pioSendData → n ≠ 2 → ∃ t r, exec (.rData n) s = .next t ∧
    t.obs.returned = some r ∧ r.ofSize n ∧
    t = { s with misuse := some .badAccessSize, freeCount := t.freeCount, obs := { s.obs with returned := t.obs.returned } }) ∧
  (∀ (n : Nat) (v : Half) (s : State), s.live → n = 1 ∨ n = 2 → s.state ≠ .waitpacket → s.state ≠ .pioGetData →
    exec (.wData n v) s = .next { s with misuse := some .dataWriteNoPhase }) ∧
  (∀ (n : Nat) (v : Half) (s : State), s.live → (n ≠ 1 ∧ n ≠ 2) ∨ (n = 1 ∧ s.state = .pioGetData) →
    exec (.wData n v) s = .next { s with misuse := some .badAccessSize }) ∧
  (∀ (v : Half) (s : State), s.live → s.state = .waitpacket → s.packet.index = 11 →
    exec (.wData 2 v) s = .next { s with misuse := some .packetOverrun })) ∧
  (∀ (len : Nat) (s : State), s.live →
    (s.state ≠ .readsectorDma → ∃ t r, exec (.dmaPull len) s = .next t ∧ t.obs.returned = some (.bytes r) ∧ r.length = len ∧
      t = { s with misuse := some .dmaPullNoPhase, freeCount := t.freeCount, obs := { s.obs with returned := t.obs.returned } }) ∧
    (s.state = .readsectorDma → s.dma.size - s.dma.cursor < len →
      ∃ t r, exec (.dmaPull len) s = .next t ∧ t.obs.returned = some (.bytes r) ∧ r.length = len ∧
      t = { s with misuse := some .dmaReadPastEnd, freeCount := t.freeCount, obs := { s.obs with returned := t.obs.returned } }))

/-- A DATA write while a packet is collected puts its bytes at the index, low byte first, and the twelfth byte runs the packet. R166, R173. That the packet operation runs the handler of b[0] on the full accumulator where it is awaited is log entry 12; that the queries made before a misuse stay observed is log entry 9. -/
def Obligations.PacketBytesCollect : Prop :=
  (∀ (n : Nat) (v : Half) (s : State), s.live → s.state = .waitpacket → n = 1 ∨ n = 2 → s.packet.index + n < 12 →
    s.packet.b.length = 12 →
    ∃ t, exec (.wData n v) s = .next t ∧ t = { s with packet := t.packet } ∧
      t.packet.index = s.packet.index + n ∧ t.packet.b.length = 12 ∧
      t.packet.b.getD s.packet.index 0 = v.extractLsb' 0 8 ∧
      (n = 2 → t.packet.b.getD (s.packet.index + 1) 0 = v.extractLsb' 8 8) ∧
      (∀ k, k ≠ s.packet.index → (n = 2 → k ≠ s.packet.index + 1) → t.packet.b.getD k 0 = s.packet.b.getD k 0)) ∧
  (∀ (n : Nat) (v : Half) (opcode : Byte) (p : Params) (s : State), s.live → s.state = .waitpacket → n = 1 ∨ n = 2 →
    s.packet.index + n = 12 → s.packet.b.length = 12 →
    (∀ k, k < 12 → (opcode :: p.toList).getD k 0 =
      if k = s.packet.index then v.extractLsb' 0 8
      else if n = 2 ∧ k = s.packet.index + 1 then v.extractLsb' 8 8
      else s.packet.b.getD k 0) →
    ∃ t, exec (decodePacket opcode p) { s with packet := { s.packet with index := 0 } } = .next t ∧
      (t.live → exec (.wData n v) s = .next t) ∧
      (¬ t.live → exec (.wData n v) s = .next { s with
        misuse := t.misuse, refused := t.refused, obs := { s.obs with queries := t.obs.queries } }))

/-- A packet command is its six 16-bit writes of DATA. R124: six 16-bit writes, each carrying b[2k] in bits 7:0 and b[2k+1] in bits 15:8. That a packet is one operation of the model, what it is elsewhere, and what an operation that is not applied leaves: log entry 12. -/
def Obligations.SixWritesAreThePacket : Prop :=
  (∀ (opcode : Byte) (p : Params) (s t : State), s.awaiting → s.packet.b.length = 12 →
    exec (decodePacket opcode p) s = .next t → t.live →
    execAll [.wData 2 (p.b1 ++ opcode), .wData 2 (p.b3 ++ p.b2), .wData 2 (p.b5 ++ p.b4), .wData 2 (p.b7 ++ p.b6),
      .wData 2 (p.b9 ++ p.b8), .wData 2 (p.b11 ++ p.b10)] s = .next t) ∧
  (∀ (opcode : Byte) (p : Params) (s t : State), ¬ s.awaiting → t.live →
    execAll [.wData 2 (p.b1 ++ opcode), .wData 2 (p.b3 ++ p.b2), .wData 2 (p.b5 ++ p.b4), .wData 2 (p.b7 ++ p.b6),
      .wData 2 (p.b9 ++ p.b8), .wData 2 (p.b11 ++ p.b10)] s = .next t →
    exec (decodePacket opcode p) s = .next t) ∧
  (∀ (opcode : Byte) (p : Params) (s : State), s.live → s.state ≠ .waitpacket → s.state ≠ .pioGetData →
    exec (decodePacket opcode p) s = .next { s with misuse := some .dataWriteNoPhase })

/-- A DATA write in a receive phase stores its two bytes, and the last word of a SET_MODE block has the block checked and stored. R167 with R85, R88 and R233. -/
def Obligations.ReceivedWordIsStored : Prop :=
  (∀ (v : Half) (s : State), s.live → s.state = .pioGetData → s.pio.cursor + 1 < s.pio.size → Memory.wf s.pio.data →
    ∃ t, exec (.wData 2 v) s = .next t ∧
      Memory.read t.pio.data (2 * s.pio.cursor) = v.extractLsb' 0 8 ∧
      Memory.read t.pio.data (2 * s.pio.cursor + 1) = v.extractLsb' 8 8 ∧
      (∀ a, a ≠ 2 * s.pio.cursor → a ≠ 2 * s.pio.cursor + 1 → Memory.read t.pio.data a = Memory.read s.pio.data a) ∧
      t = { s with pio := { s.pio with data := t.pio.data, cursor := s.pio.cursor + 1 } }) ∧
  (∀ (v : Half) (s : State), s.live → s.state = .pioGetData → s.pio.cursor + 1 = s.pio.size →
    s.pio.nextState = .processSetMode → Memory.wf s.pio.data → s.hwInfo.length = 32 →
    let off := s.setMode.offset.toNat
    let len := s.setMode.length.toNat
    ∃ t, exec (.wData 2 v) s = .next t ∧
      Memory.read t.pio.data (2 * s.pio.cursor) = v.extractLsb' 0 8 ∧
      Memory.read t.pio.data (2 * s.pio.cursor + 1) = v.extractLsb' 8 8 ∧
      (∀ a, a ≠ 2 * s.pio.cursor → a ≠ 2 * s.pio.cursor + 1 → Memory.read t.pio.data a = Memory.read s.pio.data a) ∧
      (off + len ≤ 32 →
        t.hwInfo.length = 32 ∧
        (∀ i, i < 32 → t.hwInfo.getD i 0 =
          if off ≤ i ∧ i < off + len ∧ (i = 2 ∨ i = 4 ∨ i = 5 ∨ i = 6 ∨ i = 9) then Memory.read t.pio.data (i - off)
          else s.hwInfo.getD i 0) ∧
        CommandEnds 0x40#8 .complete [] s t ∧
        t = { s with state := t.state, status := t.status, intReason := t.intReason, readParams := t.readParams,
                     pioLimit := t.pioLimit, intrq := t.intrq, obs := t.obs, hwInfo := t.hwInfo,
                     pio := { s.pio with data := t.pio.data, cursor := s.pio.cursor + 1 } }) ∧
      (32 < off + len →
        CommandFails 0x5 0x26 0x51 [] { s with pio := { s.pio with data := t.pio.data } } t ∧
        t = { s with state := t.state, status := t.status, error := t.error, sense := t.sense, intReason := t.intReason,
                     readParams := t.readParams, pioLimit := t.pioLimit, intrq := t.intrq, obs := t.obs, pio := t.pio,
                     dma := t.dma }))

/-- The two buffers' contracts: exactly ceil(n/2) reads drain a fill of n bytes, and a DMA read is never short. R86 and R93, the source's testable properties, with n of R82 in bytes. -/
def Obligations.BuffersKeepTheirContracts : Prop :=
  (∀ (n : Nat) (s : State),
    (65536 < n → pioFill n s = misused .pioOverCapacity s) ∧
    (n ≤ 65536 → ∃ t, pioFill n s = .ok t ∧ t.pio.size = (n + 1) / 2 ∧ t.pio.cursor = 0 ∧
      (∀ k, k ≤ t.pio.size → ∃ ws u, takeWords k t = some (ws, u) ∧ ws = (List.range k).map (pioWord s) ∧
        (pioAtEnd u = true ↔ k = t.pio.size) ∧ (k = t.pio.size → pioRead u = misused .pioReadPastEnd u)))) ∧
  (∀ (len : Nat) (s : State), s.dma.cursor ≤ s.dma.size →
    (len ≤ s.dma.size - s.dma.cursor → ∃ r, dmaRead len s =
        .ok (r, { s with dma := { s.dma with cursor := s.dma.cursor + len } }) ∧ r.length = len ∧
      (∀ i, i < len → r.getD i 0 = Memory.read s.dma.data (s.dma.cursor + i)) ∧
      (len = s.dma.size - s.dma.cursor → dmaIsEmpty { s with dma := { s.dma with cursor := s.dma.cursor + len } } = true)) ∧
    (s.dma.size - s.dma.cursor < len → dmaRead len s = misused .dmaReadPastEnd s))

/-- NOP completes at once and changes nothing but the interrupt. R201. -/
def Obligations.NopOnlySignals : Prop :=
  ∀ (i : Instr) (s : State), writesCommand 0x00#8 i → s.quiescent → s.bsy = false → s.drdy = true → s.drq = false →
    exec i s = .next { s with intrq := true, obs := { s.obs with irqs := s.obs.irqs ++ [.complete] } }

/-- SOFT_RESET in every state, and EXEC_DIAG in gds_waitcmd, leave the soft-reset values and raise Complete. R202, R203, R371 and the soft column of R50. -/
def Obligations.SoftResetFromEveryState : Prop :=
  ∀ (i : Instr) (s : State), s.live → writesCommand 0x08#8 i ∨ (writesCommand 0x90#8 i ∧ s.state = .waitcmd) →
    ∃ t, exec i s = .next t ∧
      t = { s with
        state := .waitcmd
        status := 0x40
        error := 0x00
        intReason := 0x00
        sectNum := if s.trayOpen then 0x06 else if s.answers.present then 0x02 else 0x07
        intrq := true
        packet := { b := List.replicate 12 0, index := 0 }
        readParams := { startSector := 0, remaining := 0, sectorType := 0 }
        pioLimit := 0
        pio := { s.pio with cursor := 0, size := 0, nextState := .pioEnd }
        dma := { s.dma with cursor := 0, size := 0 }
        cdda := { status := .noInfo, repeats := 0, current := 150, last := 150, start := 150, scan := .none }
        sense := { key := 0, asc := 0, ascq := 0 }
        setMode := { offset := 0, length := 0 }
        tocCache := none
        answers := t.answers
        obs := { s.obs with irqs := s.obs.irqs ++ [.complete]
                            queries := s.obs.queries ++ (if s.trayOpen then [] else [.isDiscPresent]) } }

/-- SPI_PACKET clears the accumulator and waits for twelve bytes. R204, R172. -/
def Obligations.SpiPacketOpensThePacketPhase : Prop :=
  ∀ (i : Instr) (s : State), writesCommand 0xA0#8 i → s.quiescent →
    exec i s = .next { s with
      state := .waitpacket
      status := (s.status &&& 0x3F#8) ||| 0x08#8
      intReason := (s.intReason &&& 0xFC#8) ||| 0x01#8
      packet := { b := List.replicate 12 0, index := 0 } }

/-- IDENTIFY_DEVICE and IDENTIFY offer the 80-byte identification block. R205, R206, R209. -/
def Obligations.IdentifyOpensTheBlock : Prop :=
  ∀ (i : Instr) (s : State), writesCommand 0xA1#8 i ∨ writesCommand 0xEC#8 i → s.quiescent → s.cfg.identifyBlock.length = 80 →
    ∃ t, exec i s = .next t ∧ PhaseToHost s.cfg.identifyBlock 0x3F#8 .pioEnd [] s t ∧ t.byteCount = 0x0050#16 ∧
      t.pio.size = 40 ∧
      t = { s with state := t.state, status := t.status, intReason := t.intReason, byteCount := t.byteCount, intrq := t.intrq,
                   obs := t.obs, pio := t.pio }

/-- SET_FEATURES records a valid transfer mode and aborts on every other pair. R207. -/
def Obligations.SetFeaturesRecordsTheMode : Prop :=
  ∀ (i : Instr) (s : State), writesCommand 0xEF#8 i → s.quiescent →
    let mode := s.sectCount.toNat / 8
    let valid : Prop := s.features.toNat = 3 ∧ ((mode = 0 ∧ s.sectCount.toNat < 2) ∨ mode = 1 ∨ mode = 2 ∨ mode = 4)
    (valid → exec i s = .next { s with
      transferMode := s.sectCount
      dmaEnable := decide (mode = 2 ∨ mode = 4)
      status := (s.status &&& 0x77#8) ||| 0x40#8
      intrq := true
      obs := { s.obs with irqs := s.obs.irqs ++ [.complete] } }) ∧
    (¬ valid → exec i s = .next { s with
      status := (s.status &&& 0x77#8) ||| 0x41#8
      error := 0xB4
      sense := { key := 0xB, asc := 0x00, ascq := 0x00 }
      pio := { s.pio with cursor := 0, size := 0, nextState := .pioEnd }
      dma := { s.dma with cursor := 0, size := 0 }
      readParams := { startSector := 0, remaining := 0, sectorType := 0 }
      pioLimit := 0
      intrq := true
      obs := { s.obs with irqs := s.obs.irqs ++ [.error] } })

/-- An unknown ATA command code completes with CHECK, ABRT and the illegal-request sense. R208 through R345 at the ATA level. -/
def Obligations.UnknownCommandFails : Prop :=
  ∀ (code : Byte) (i : Instr) (s : State), code ∉ ataCodes → writesCommand code i → s.quiescent →
    exec i s = .next { s with
      status := (s.status &&& 0x77#8) ||| 0x41#8
      error := 0x54
      sense := { key := 0x5, asc := 0x20, ascq := 0x00 }
      pio := { s.pio with cursor := 0, size := 0, nextState := .pioEnd }
      dma := { s.dma with cursor := 0, size := 0 }
      readParams := { startSector := 0, remaining := 0, sectorType := 0 }
      pioLimit := 0
      intrq := true
      obs := { s.obs with irqs := s.obs.irqs ++ [.error] } }

/-- TEST_UNIT with a disc and the tray closed completes without error. R221, the ready branch. -/
def Obligations.TestUnitWithADisc : Prop :=
  ∀ (p : Params) (s : State), s.awaiting → s.ready →
    ∃ t, exec (.testUnit p) s = .next t ∧ CommandEnds 0x40#8 .complete [.isDiscPresent] s t ∧
      t.packet = { b := 0x00#8 :: p.toList, index := 12 } ∧
      t = { s with state := t.state, status := t.status, intReason := t.intReason, readParams := t.readParams,
                   pioLimit := t.pioLimit, intrq := t.intrq, obs := t.obs, packet := t.packet, answers := t.answers }

/-- Commands that need the disc or its TOC fail with not-ready or medium-error without it. R331's not-ready row and its medium-error row for the TOC, through R332's list. That an open tray is found without asking the provider is log entry 11. That a TOC whose disc_format is none of the codes 0, 1, 2, 3 and 8 counts as malformed, and so as no TOC here, is the model's inference (log entry 16). -/
def Obligations.NotReadyAndMediumErrors : Prop :=
  (∀ (opcode : Byte) (p : Params) (s : State), s.awaiting → s.trayOpen = true ∨ s.answers.present = false →
    opcode ∈ [0x00#8, 0x14#8, 0x15#8, 0x20#8, 0x21#8, 0x22#8] ∨
      (opcode ∈ [0x30#8, 0x31#8] ∧ (sectorSize s.cfg (p.b1.extractLsb' 1 7)).isSome = true) →
    ∃ t, exec (decodePacket opcode p) s = .next t ∧
      CommandFails 0x2 0x3A 0x20 (if s.trayOpen then [] else [.isDiscPresent]) s t ∧
      t.packet = { b := opcode :: p.toList, index := 12 } ∧
      t = { s with state := t.state, status := t.status, intReason := t.intReason, readParams := t.readParams,
                   pioLimit := t.pioLimit, intrq := t.intrq, obs := t.obs, packet := t.packet, error := t.error,
                   sense := t.sense, pio := t.pio, dma := t.dma, answers := t.answers }) ∧
  (∀ (opcode : Byte) (p : Params) (s : State), s.awaiting → s.ready → s.lacksToc →
    opcode = 0x14#8 ∨ opcode = 0x15#8 ∨ (opcode = 0x20#8 ∧ (paramType p = 1 ∨ paramType p = 2)) →
    ∃ t, exec (decodePacket opcode p) s = .next t ∧
      CommandFails 0x3 0x11 0x30 [.isDiscPresent, .getTOC] s t ∧
      t.packet = { b := opcode :: p.toList, index := 12 } ∧
      t = { s with state := t.state, status := t.status, intReason := t.intReason, readParams := t.readParams,
                   pioLimit := t.pioLimit, intrq := t.intrq, obs := t.obs, packet := t.packet, error := t.error,
                   sense := t.sense, pio := t.pio, dma := t.dma, answers := t.answers })

/-- REQ_STAT sends the window of the ten-byte status block. R223, R224. That an open tray is found without asking the provider is log entry 11. That a TOC whose disc_format is none of the codes 0, 1, 2, 3 and 8 counts as malformed, and so as no TOC here, is the model's inference (log entry 16). -/
def Obligations.ReqStatReportsTheDrive : Prop :=
  ∀ (p : Params) (s : State), s.awaiting →
    let block (fmt : BitVec 4) (found : Option (Nat × Track)) : List Byte :=
      [(0#4 ++ s.unitStatus), fmt ++ s.cdda.repeats] ++ underTrack found ++
      [s.cdda.current.extractLsb' 16 8, s.cdda.current.extractLsb' 8 8, s.cdda.current.extractLsb' 0 8, s.hwInfo.getD 9 0, 0x00]
    (¬ s.ready → ∃ t, exec (.reqStat p) s = .next t ∧
      PacketResponds (window (block s.discFormat none) p.b2.toNat p.b4.toNat) 0x7F#8
        (if s.trayOpen then [] else [.isDiscPresent]) s t ∧ t.packet = { b := 0x10#8 :: p.toList, index := 12 } ∧
      t = { s with state := t.state, status := t.status, intReason := t.intReason, readParams := t.readParams,
                   pioLimit := t.pioLimit, intrq := t.intrq, obs := t.obs, packet := t.packet, byteCount := t.byteCount, pio := t.pio, answers := t.answers }) ∧
    (s.ready → s.lacksToc → ∃ t, exec (.reqStat p) s = .next t ∧
      PacketResponds (window (block s.discFormat none) p.b2.toNat p.b4.toNat) 0x7F#8 [.isDiscPresent, .getTOC] s t ∧
      t.packet = { b := 0x10#8 :: p.toList, index := 12 } ∧
      t = { s with state := t.state, status := t.status, intReason := t.intReason, readParams := t.readParams,
                   pioLimit := t.pioLimit, intrq := t.intrq, obs := t.obs, packet := t.packet, byteCount := t.byteCount, pio := t.pio, answers := t.answers }) ∧
    (∀ toc, s.ready → s.hasToc toc → ∃ t, exec (.reqStat p) s = .next t ∧
      PacketResponds (window (block (if s.tocCache = none then toc.discFormat else s.discFormat) (trackAt toc s.cdda.current))
        p.b2.toNat p.b4.toNat) 0x7F#8 (tocQueries s) s t ∧ t.packet = { b := 0x10#8 :: p.toList, index := 12 } ∧
      t = { s with state := t.state, status := t.status, intReason := t.intReason, readParams := t.readParams,
                   pioLimit := t.pioLimit, intrq := t.intrq, obs := t.obs, packet := t.packet, byteCount := t.byteCount, pio := t.pio, answers := t.answers,
                   tocCache := some toc, sectNum := sectNumWith s.unitStatus toc s })

/-- track_at gives the last track that starts at or before the frame, and none outside the disc. R105. -/
def Obligations.TrackUnderAFrame : Prop :=
  ∀ (t : Toc) (fad : Fad), tocValid t = true →
    (∀ (k : Nat) (e : Track), trackAt t fad = some (k, e) ↔
      fad.toNat < t.leadout.fad.toNat ∧ trackEntry t k = some e ∧ e.fad.toNat ≤ fad.toNat ∧
      ∀ (j : Nat) (f : Track), k < j → trackEntry t j = some f → fad.toNat < f.fad.toNat) ∧
    (trackAt t fad = none ↔ t.leadout.fad.toNat ≤ fad.toNat ∨
      ∀ e, trackEntry t t.firstTrack.toNat = some e → fad.toNat < e.fad.toNat)

/-- REQ_MODE sends the window of the hardware-info block. R228, R222. -/
def Obligations.ReqModeSendsTheBlock : Prop :=
  ∀ (p : Params) (s : State), s.awaiting → s.hwInfo.length = 32 →
    ∃ t bytes, exec (.reqMode p) s = .next t ∧
      bytes.length = min p.b4.toNat (32 - p.b2.toNat) ∧
      (∀ j, j < bytes.length → bytes.getD j 0 = s.hwInfo.getD (p.b2.toNat + j) 0) ∧
      PacketResponds bytes 0x7F#8 [] s t ∧ t.packet = { b := 0x11#8 :: p.toList, index := 12 } ∧
      t = { s with state := t.state, status := t.status, intReason := t.intReason, readParams := t.readParams,
                   pioLimit := t.pioLimit, intrq := t.intrq, obs := t.obs, packet := t.packet, byteCount := t.byteCount, pio := t.pio }

/-- SET_MODE latches its window and takes the block from the host; an empty block is checked at once. R232, R175 and, for length 0, R233. -/
def Obligations.SetModeOpensTheReceivePhase : Prop :=
  ∀ (p : Params) (s : State), s.awaiting → s.hwInfo.length = 32 →
    ∃ t, exec (.setMode p) s = .next t ∧ t.packet = { b := 0x12#8 :: p.toList, index := 12 } ∧ t.setMode = { offset := p.b2, length := p.b4 } ∧
      t.hwInfo = s.hwInfo ∧
      (p.b4 ≠ 0 →
        t.state = .pioGetData ∧ t.status = (s.status &&& 0x7F#8) ||| 0x08#8 ∧ t.intReason = s.intReason &&& 0xFC#8 ∧
        t.byteCount.toNat = 2 * ((p.b4.toNat + 1) / 2) ∧
        t.pio = { s.pio with cursor := 0, size := (p.b4.toNat + 1) / 2, nextState := .processSetMode } ∧
        t.intrq = true ∧ Shows [] [.dataRequest] s t ∧
        t = { s with state := t.state, status := t.status, intReason := t.intReason, byteCount := t.byteCount, intrq := t.intrq,
                     obs := t.obs, packet := t.packet, pio := t.pio, setMode := t.setMode }) ∧
      (p.b4 = 0 → p.b2.toNat ≤ 32 →
        CommandEnds 0x40#8 .complete [] s t ∧
        t = { s with state := t.state, status := t.status, intReason := t.intReason, readParams := t.readParams,
                     pioLimit := t.pioLimit, intrq := t.intrq, obs := t.obs, packet := t.packet, setMode := t.setMode,
                     pio := { s.pio with cursor := 0, size := 0, nextState := .processSetMode } }) ∧
      (p.b4 = 0 → 32 < p.b2.toNat →
        CommandFails 0x5 0x26 0x51 [] s t ∧
        t = { s with state := t.state, status := t.status, intReason := t.intReason, readParams := t.readParams,
                     pioLimit := t.pioLimit, intrq := t.intrq, obs := t.obs, packet := t.packet, error := t.error,
                     sense := t.sense, pio := t.pio, dma := t.dma, setMode := t.setMode })

/-- REQ_ERROR sends the sense block and clears the pending error. R236. -/
def Obligations.ReqErrorCollectsTheError : Prop :=
  ∀ (p : Params) (s : State), s.awaiting →
    ∃ t, exec (.reqError p) s = .next t ∧
      PacketResponds (window [0xF0, 0x00, 0#4 ++ s.sense.key, 0x00, 0x00, 0x00, 0x00, 0x00, s.sense.asc, s.sense.ascq]
        0 p.b4.toNat) 0x7E#8 [] s t ∧
      t.sense = { key := 0, asc := 0, ascq := 0 } ∧ t.error = 0x00 ∧ t.check = false ∧ t.packet = { b := 0x13#8 :: p.toList, index := 12 } ∧
      t = { s with state := t.state, status := t.status, intReason := t.intReason, readParams := t.readParams,
                   pioLimit := t.pioLimit, intrq := t.intrq, obs := t.obs, packet := t.packet, byteCount := t.byteCount, pio := t.pio,
                   sense := t.sense, error := t.error }

/-- The serialized TOC has 408 bytes in the layout of the table. R241. -/
def Obligations.TocBytesLayout : Prop :=
  ∀ t : Toc, tocValid t = true →
    (tocBytes t).length = 408 ∧
    (∀ (k : Nat) (e : Track), 1 ≤ k → k ≤ 99 → trackEntry t k = some e →
      window (tocBytes t) (4 * (k - 1)) 4 =
        [e.ctrl ++ e.adr, e.fad.extractLsb' 16 8, e.fad.extractLsb' 8 8, e.fad.extractLsb' 0 8]) ∧
    (∀ k, 1 ≤ k → k ≤ 99 → k < t.firstTrack.toNat ∨ t.lastTrack.toNat < k →
      window (tocBytes t) (4 * (k - 1)) 4 = [0xFF, 0xFF, 0xFF, 0xFF]) ∧
    (∀ e, trackEntry t t.firstTrack.toNat = some e →
      window (tocBytes t) 396 4 = [e.ctrl ++ e.adr, t.firstTrack, 0x00, 0x00]) ∧
    (∀ e, trackEntry t t.lastTrack.toNat = some e →
      window (tocBytes t) 400 4 = [e.ctrl ++ e.adr, t.lastTrack, 0x00, 0x00]) ∧
    window (tocBytes t) 404 4 = [t.leadout.ctrl ++ t.leadout.adr, t.leadout.fad.extractLsb' 16 8,
      t.leadout.fad.extractLsb' 8 8, t.leadout.fad.extractLsb' 0 8]

/-- GET_TOC with a disc and a TOC sends the first bytes of the serialized TOC and caches it. R240; the bytes are those of the statement on R241. -/
def Obligations.GetTocSendsTheToc : Prop :=
  ∀ (p : Params) (s : State) (toc : Toc), s.awaiting → s.ready → s.hasToc toc →
    ∃ t, exec (.getToc p) s = .next t ∧
      PacketResponds (window (tocBytes toc) 0 (p.b3.toNat * 256 + p.b4.toNat)) 0x7F#8 (tocQueries s) s t ∧ t.packet = { b := 0x14#8 :: p.toList, index := 12 } ∧
      t = { s with state := t.state, status := t.status, intReason := t.intReason, readParams := t.readParams,
                   pioLimit := t.pioLimit, intrq := t.intrq, obs := t.obs, packet := t.packet, byteCount := t.byteCount, pio := t.pio, answers := t.answers,
                   tocCache := some toc, sectNum := sectNumWith s.unitStatus toc s }

/-- REQ_SES sends the whole disc or one session, and rejects a session the disc does not have. R244. -/
def Obligations.ReqSesReportsTheSession : Prop :=
  ∀ (p : Params) (s : State) (toc : Toc), s.awaiting → s.ready → s.hasToc toc →
    (∀ (number : Byte) (fad : Fad),
      (p.b2 = 0 ∧ number.toNat = toc.sessions.length % 256 ∧ fad = toc.leadout.fad) ∨
      (∃ e, p.b2 ≠ 0 ∧ toc.sessions[p.b2.toNat - 1]? = some e ∧ number = e.firstTrack ∧ fad = e.startFad) →
      ∃ t, exec (.reqSes p) s = .next t ∧
        PacketResponds (window [0#4 ++ s.unitStatus, 0x00, number, fad.extractLsb' 16 8, fad.extractLsb' 8 8, fad.extractLsb' 0 8]
          0 p.b4.toNat) 0x7F#8 (tocQueries s) s t ∧ t.packet = { b := 0x15#8 :: p.toList, index := 12 } ∧
        t = { s with state := t.state, status := t.status, intReason := t.intReason, readParams := t.readParams,
                     pioLimit := t.pioLimit, intrq := t.intrq, obs := t.obs, packet := t.packet, byteCount := t.byteCount, pio := t.pio, answers := t.answers,
                     tocCache := some toc, sectNum := sectNumWith s.unitStatus toc s }) ∧
    (toc.sessions.length < p.b2.toNat → ∃ t, exec (.reqSes p) s = .next t ∧
      CommandFails 0x5 0x24 0x51 (tocQueries s) s t ∧ t.packet = { b := 0x15#8 :: p.toList, index := 12 } ∧
      t = { s with state := t.state, status := t.status, intReason := t.intReason, readParams := t.readParams,
                   pioLimit := t.pioLimit, intrq := t.intrq, obs := t.obs, packet := t.packet, error := t.error,
                   sense := t.sense, pio := t.pio, dma := t.dma, answers := t.answers,
                   tocCache := some toc, sectNum := sectNumWith s.unitStatus toc s })

/-- GET_SCD of format 1 sends the position block, and every other format is rejected. R248. That an open tray is found without asking the provider is log entry 11. That a TOC whose disc_format is none of the codes 0, 1, 2, 3 and 8 counts as malformed, and so as no TOC here, is the model's inference (log entry 16). -/
def Obligations.GetScdReportsThePosition : Prop :=
  ∀ (p : Params) (s : State), s.awaiting →
    let audio : Byte := match s.cdda.status with
      | .playing => 0x11
      | .paused => 0x12
      | .terminated => 0x13
      | .noInfo => 0x15
    let cur := s.cdda.current
    let block (found : Option (Nat × Track)) : List Byte :=
      let rel : Fad := match found with
        | some (_, e) => cur - e.fad
        | none => 0
      [0x00, audio, 0x00, 0x0E] ++ underTrack found ++ [rel.extractLsb' 16 8, rel.extractLsb' 8 8, rel.extractLsb' 0 8,
        0x00, cur.extractLsb' 16 8, cur.extractLsb' 8 8, cur.extractLsb' 0 8]
    let len := p.b3.toNat * 256 + p.b4.toNat
    (p.b1.toNat % 16 ≠ 1 → ∃ t, exec (.getScd p) s = .next t ∧ CommandFails 0x5 0x24 0x51 [] s t ∧ t.packet = { b := 0x40#8 :: p.toList, index := 12 } ∧
      t = { s with state := t.state, status := t.status, intReason := t.intReason, readParams := t.readParams,
                   pioLimit := t.pioLimit, intrq := t.intrq, obs := t.obs, packet := t.packet, error := t.error,
                   sense := t.sense, pio := t.pio, dma := t.dma }) ∧
    (p.b1.toNat % 16 = 1 → ¬ s.ready → ∃ t, exec (.getScd p) s = .next t ∧
      PacketResponds (window (block none) 0 len) 0x7F#8 (if s.trayOpen then [] else [.isDiscPresent]) s t ∧ t.packet = { b := 0x40#8 :: p.toList, index := 12 } ∧
      t = { s with state := t.state, status := t.status, intReason := t.intReason, readParams := t.readParams,
                   pioLimit := t.pioLimit, intrq := t.intrq, obs := t.obs, packet := t.packet, byteCount := t.byteCount, pio := t.pio, answers := t.answers }) ∧
    (p.b1.toNat % 16 = 1 → s.ready → s.lacksToc → ∃ t, exec (.getScd p) s = .next t ∧
      PacketResponds (window (block none) 0 len) 0x7F#8 [.isDiscPresent, .getTOC] s t ∧ t.packet = { b := 0x40#8 :: p.toList, index := 12 } ∧
      t = { s with state := t.state, status := t.status, intReason := t.intReason, readParams := t.readParams,
                   pioLimit := t.pioLimit, intrq := t.intrq, obs := t.obs, packet := t.packet, byteCount := t.byteCount, pio := t.pio, answers := t.answers }) ∧
    (∀ toc, p.b1.toNat % 16 = 1 → s.ready → s.hasToc toc → ∃ t, exec (.getScd p) s = .next t ∧
      PacketResponds (window (block (trackAt toc cur)) 0 len) 0x7F#8 (tocQueries s) s t ∧ t.packet = { b := 0x40#8 :: p.toList, index := 12 } ∧
      t = { s with state := t.state, status := t.status, intReason := t.intReason, readParams := t.readParams,
                   pioLimit := t.pioLimit, intrq := t.intrq, obs := t.obs, packet := t.packet, byteCount := t.byteCount, pio := t.pio, answers := t.answers,
                   tocCache := some toc, sectNum := sectNumWith s.unitStatus toc s })

/-- An unrecognized packet opcode completes with CHECK, ILI and the illegal-request sense. R252 through R345 at the packet level. -/
def Obligations.UnrecognizedOpcodeFails : Prop :=
  ∀ (opcode : Byte) (p : Params) (s : State), s.awaiting →
    ∃ t, exec (.spiUnrecognized opcode p) s = .next t ∧ CommandFails 0x5 0x20 0x51 [] s t ∧ t.packet = { b := opcode :: p.toList, index := 12 } ∧
      t = { s with state := t.state, status := t.status, intReason := t.intReason, readParams := t.readParams,
                   pioLimit := t.pioLimit, intrq := t.intrq, obs := t.obs, packet := t.packet, error := t.error,
                   sense := t.sense, pio := t.pio, dma := t.dma }

/-- CD_OPEN opens the tray, ends playing, forgets the TOC and clears both buffers. R265. -/
def Obligations.CdOpenStopsEverything : Prop :=
  ∀ (p : Params) (s : State), s.awaiting →
    ∃ t, exec (.cdOpen p) s = .next t ∧ CommandEnds 0x40#8 .complete [] s t ∧ t.packet = { b := 0x16#8 :: p.toList, index := 12 } ∧
      t = { s with state := t.state, status := t.status, intReason := t.intReason, readParams := t.readParams,
                   pioLimit := t.pioLimit, intrq := t.intrq, obs := t.obs, packet := t.packet,
                   trayOpen := true, tocCache := none, sectNum := 0x06,
                   cdda := { s.cdda with status := .terminated, scan := .none },
                   pio := { s.pio with cursor := 0, size := 0, nextState := .pioEnd },
                   dma := { s.dma with cursor := 0, size := 0 } }

/-- CD_PLAY with positions inside the disc starts playing the range. R268, the valid branch. -/
def Obligations.CdPlayStartsTheRange : Prop :=
  ∀ (p : Params) (s : State) (toc : Toc) (first : Track) (rest : List Track), s.awaiting → s.ready → s.hasToc toc →
    paramType p = 1 ∨ paramType p = 2 → toc.tracks = first :: rest →
    first.fad.toNat ≤ targetAddress p → targetAddress p ≤ endAddress p → endAddress p ≤ toc.leadout.fad.toNat →
    ∃ t, exec (.cdPlay p) s = .next t ∧ CommandEnds 0x50#8 .complete (tocQueries s) s t ∧ t.packet = { b := 0x20#8 :: p.toList, index := 12 } ∧
      t.cdda.status = .playing ∧ t.cdda.repeats.toNat = p.b6.toNat % 16 ∧ t.cdda.current.toNat = targetAddress p ∧
      t.cdda.start.toNat = targetAddress p ∧ t.cdda.last.toNat = endAddress p ∧ t.cdda.scan = .none ∧
      t = { s with state := t.state, status := t.status, intReason := t.intReason, readParams := t.readParams,
                   pioLimit := t.pioLimit, intrq := t.intrq, obs := t.obs, packet := t.packet, answers := t.answers,
                   tocCache := some toc, sectNum := sectNumWith 3 toc s, cdda := t.cdda }

/-- CD_PLAY of parameter type 7 resumes a paused playback, ends one outside its range and leaves any other status. R269. -/
def Obligations.ResumeOnlyFromPaused : Prop :=
  ∀ (p : Params) (s : State), s.awaiting → s.ready → paramType p = 7 →
    ∃ t, exec (.cdPlay p) s = .next t ∧ CommandEnds 0x40#8 .complete [.isDiscPresent] s t ∧ t.packet = { b := 0x20#8 :: p.toList, index := 12 } ∧
      t.discFormat = s.discFormat ∧
      (s.cdda.status = .paused → s.cdda.start.toNat ≤ s.cdda.current.toNat → s.cdda.current.toNat ≤ s.cdda.last.toNat →
        t.cdda = { s.cdda with status := .playing } ∧ t.unitStatus = 3) ∧
      (s.cdda.status = .paused → s.cdda.current.toNat < s.cdda.start.toNat ∨ s.cdda.last.toNat < s.cdda.current.toNat →
        t.cdda = { s.cdda with status := .terminated } ∧ t.unitStatus = 2) ∧
      (s.cdda.status ≠ .paused → t.cdda = s.cdda ∧ t.unitStatus = s.unitStatus) ∧
      t = { s with state := t.state, status := t.status, intReason := t.intReason, readParams := t.readParams,
                   pioLimit := t.pioLimit, intrq := t.intrq, obs := t.obs, packet := t.packet, answers := t.answers,
                   sectNum := t.sectNum, cdda := t.cdda }

/-- CD_SEEK sets the current frame, and leaves NoInfo for Paused; as a pause it stops a playback where it is. R270, R272, R260. -/
def Obligations.SeekMovesTheFrame : Prop :=
  ∀ (p : Params) (s : State), s.awaiting → s.ready →
    (paramType p = 1 ∨ paramType p = 2 →
      (s.cdda.status = .playing → s.cdda.start.toNat ≤ targetAddress p ∧ targetAddress p ≤ s.cdda.last.toNat) →
      ∃ t, exec (.cdSeek p) s = .next t ∧ CommandEnds 0x50#8 .complete [.isDiscPresent] s t ∧ t.packet = { b := 0x21#8 :: p.toList, index := 12 } ∧
        t.cdda.current.toNat = targetAddress p ∧
        t.cdda.status = (if s.cdda.status = .noInfo then CddaStatus.paused else s.cdda.status) ∧
        t.cdda = { s.cdda with current := t.cdda.current, status := t.cdda.status } ∧ t.discFormat = s.discFormat ∧
        (s.cdda.status = .playing ∧ s.cdda.scan = .none → t.unitStatus = 3) ∧
        (s.cdda.status = .playing ∧ s.cdda.scan ≠ .none → t.unitStatus = 5) ∧
        (s.cdda.status = .paused ∨ s.cdda.status = .noInfo → t.unitStatus = 1) ∧
        (s.cdda.status = .terminated → t.unitStatus = s.unitStatus) ∧
        t = { s with state := t.state, status := t.status, intReason := t.intReason, readParams := t.readParams,
                     pioLimit := t.pioLimit, intrq := t.intrq, obs := t.obs, packet := t.packet, answers := t.answers,
                     sectNum := t.sectNum, cdda := t.cdda }) ∧
    (paramType p = 4 → ∃ t, exec (.cdSeek p) s = .next t ∧ CommandEnds 0x40#8 .complete [.isDiscPresent] s t ∧
        t.packet = { b := 0x21#8 :: p.toList, index := 12 } ∧ t.discFormat = s.discFormat ∧
        (s.cdda.status = .playing → t.cdda = { s.cdda with status := .paused, scan := .none } ∧ t.unitStatus = 1) ∧
        (s.cdda.status ≠ .playing → t.cdda = s.cdda ∧ t.unitStatus = s.unitStatus) ∧
        t = { s with state := t.state, status := t.status, intReason := t.intReason, readParams := t.readParams,
                     pioLimit := t.pioLimit, intrq := t.intrq, obs := t.obs, packet := t.packet, answers := t.answers,
                     sectNum := t.sectNum, cdda := t.cdda })

/-- CD_SCAN with a target inside the range plays from it with the scan flag of its direction. R274. -/
def Obligations.ScanPlaysFromTheTarget : Prop :=
  ∀ (p : Params) (s : State), s.awaiting → s.ready → paramType p = 1 ∨ paramType p = 2 →
    s.cdda.start.toNat ≤ targetAddress p → targetAddress p ≤ s.cdda.last.toNat →
    ∃ t, exec (.cdScan p) s = .next t ∧ CommandEnds 0x50#8 .complete [.isDiscPresent] s t ∧ t.packet = { b := 0x22#8 :: p.toList, index := 12 } ∧
      t.cdda.current.toNat = targetAddress p ∧
      t.cdda = { s.cdda with status := .playing, current := t.cdda.current,
                             scan := if p.b1.toNat / 8 % 2 = 0 then .forward else .reverse } ∧
      t.unitStatus = 5 ∧ t.discFormat = s.discFormat ∧
      t = { s with state := t.state, status := t.status, intReason := t.intReason, readParams := t.readParams,
                   pioLimit := t.pioLimit, intrq := t.intrq, obs := t.obs, packet := t.packet, answers := t.answers,
                   sectNum := t.sectNum, cdda := t.cdda }

/-- CD_PLAY, CD_SEEK and CD_SCAN reject a bad parameter type or a target out of range and leave the audio state. R332's rows for R268, R270 and R274. -/
def Obligations.PositioningRejectsBadFields : Prop :=
  ∀ (p : Params) (s : State), s.awaiting → s.ready →
    (∀ opcode, (opcode = 0x20#8 ∧ paramType p ∉ [1, 2, 7]) ∨ (opcode = 0x21#8 ∧ paramType p ∉ [1, 2, 4]) ∨
        (opcode = 0x22#8 ∧ paramType p ∉ [1, 2]) ∨
        (opcode = 0x21#8 ∧ s.cdda.status = .playing ∧ (paramType p = 1 ∨ paramType p = 2) ∧
          (targetAddress p < s.cdda.start.toNat ∨ s.cdda.last.toNat < targetAddress p)) ∨
        (opcode = 0x22#8 ∧ (paramType p = 1 ∨ paramType p = 2) ∧
          (targetAddress p < s.cdda.start.toNat ∨ s.cdda.last.toNat < targetAddress p)) →
      ∃ t, exec (decodePacket opcode p) s = .next t ∧ CommandFails 0x5 0x24 0x51 [.isDiscPresent] s t ∧
        t.packet = { b := opcode :: p.toList, index := 12 } ∧
        t = { s with state := t.state, status := t.status, intReason := t.intReason, readParams := t.readParams,
                     pioLimit := t.pioLimit, intrq := t.intrq, obs := t.obs, packet := t.packet, error := t.error,
                     sense := t.sense, pio := t.pio, dma := t.dma, answers := t.answers }) ∧
    (∀ (toc : Toc) (first : Track) (rest : List Track), s.hasToc toc → toc.tracks = first :: rest →
      paramType p = 1 ∨ paramType p = 2 →
      targetAddress p < first.fad.toNat ∨ endAddress p < targetAddress p ∨ toc.leadout.fad.toNat < endAddress p →
      ∃ t, exec (.cdPlay p) s = .next t ∧ CommandFails 0x5 0x24 0x51 (tocQueries s) s t ∧ t.packet = { b := 0x20#8 :: p.toList, index := 12 } ∧
        t = { s with state := t.state, status := t.status, intReason := t.intReason, readParams := t.readParams,
                     pioLimit := t.pioLimit, intrq := t.intrq, obs := t.obs, packet := t.packet, error := t.error,
                     sense := t.sense, pio := t.pio, dma := t.dma, answers := t.answers,
                     tocCache := some toc, sectNum := sectNumWith s.unitStatus toc s })

/-- A sector read without a size is refused, one without a usable limit is a misuse, one of no sectors completes. R286, R351; R333: refusal before everything. That the accumulator keeps no byte of a packet that is not applied is log entry 12; that the disc query stays observed beside PioLimitTooSmall is log entry 9. -/
def Obligations.SectorReadsThatDoNotStart : Prop :=
  (∀ (i : Instr) (opcode : Byte) (p : Params) (count : Nat) (s : State), s.awaiting → readsSectors i opcode p count →
    (sectorSize s.cfg (p.b1.extractLsb' 1 7) = none →
      exec i s = .next { s with refused := some .unspecifiedSectorSelection }) ∧
    (∀ size, sectorSize s.cfg (p.b1.extractLsb' 1 7) = some size → s.ready → s.dmaEnable = false → 0 < count →
      s.byteCount.toNat < 2 →
      exec i s = .next { s with misuse := some .pioLimitTooSmall
                                obs := { s.obs with queries := s.obs.queries ++ [.isDiscPresent] } })) ∧
  (∀ (i : Instr) (opcode : Byte) (p : Params) (s : State), s.awaiting → s.ready → readsSectors i opcode p 0 →
    (sectorSize s.cfg (p.b1.extractLsb' 1 7)).isSome = true →
    ∃ t, exec i s = .next t ∧ CommandEnds 0x40#8 .complete [.isDiscPresent] s t ∧ t.packet = { b := opcode :: p.toList, index := 12 } ∧
      t = { s with state := t.state, status := t.status, intReason := t.intReason, readParams := t.readParams,
                   pioLimit := t.pioLimit, intrq := t.intrq, obs := t.obs, packet := t.packet, answers := t.answers,
                   dma := { s.dma with cursor := 0, size := 0 } })

/-- The sector sizes are those of the mandatory table, and every configured size is even and at most 2352. R283. What the model does with a further entry outside 2..2352 or odd is log entry 5. -/
def Obligations.MandatorySectorSizes : Prop :=
  (∀ c : Config,
    sectorSize c 0x12 = some 2048 ∧ sectorSize c 0x14 = some 2048 ∧ sectorSize c 0x15 = some 2324 ∧
    (∀ st : BitVec 7, 0x78 ≤ st.toNat → st.toNat ≤ 0x7E → sectorSize c st = some 2352) ∧
    (∀ (st : BitVec 7) (size : Nat), sectorSize c st = some size → 2 ≤ size ∧ size ≤ 2352 ∧ size % 2 = 0)) ∧
  (∀ (c : Config) (st : BitVec 7), c.sectorEntries = [] → (sectorSize c st).isSome = true →
    st.toNat ∈ [0x12, 0x14, 0x15] ∨ (0x78 ≤ st.toNat ∧ st.toNat ≤ 0x7E))

/-- A sector read with the DMA bit set fetches up to 16 sectors and waits for the DMA engine. R286, R294, R91 and, on failure, R290. -/
def Obligations.DmaReadFetchesTheFirstBatch : Prop :=
  ∀ (i : Instr) (opcode : Byte) (p : Params) (count size : Nat) (s : State), s.awaiting → s.ready → s.dmaEnable = true →
    readsSectors i opcode p count → 0 < count → sectorSize s.cfg (p.b1.extractLsb' 1 7) = some size →
    let n := min 16 count
    let asked : List Query := [.isDiscPresent, .readSectors (readAddress p) n (p.b1.extractLsb' 1 7)]
    (∀ sectors, s.answers.sectors = some sectors → sectors.length = n * size → ∃ t, exec i s = .next t ∧
      t.state = .readsectorDma ∧ t.status = (s.status &&& 0x77#8) ||| 0x80#8 ∧ t.packet = { b := opcode :: p.toList, index := 12 } ∧
      t.readParams = { startSector := readAddress p + n, remaining := count - n, sectorType := p.b1.extractLsb' 1 7 } ∧
      t.pioLimit = s.byteCount ∧ t.dma.cursor = 0 ∧ t.dma.size = n * size ∧
      (∀ a, a < n * size → Memory.read t.dma.data a = sectors.getD a 0) ∧
      (∀ a, n * size ≤ a → Memory.read t.dma.data a = Memory.read s.dma.data a) ∧ Shows asked [] s t ∧
      t = { s with state := t.state, status := t.status, packet := t.packet, readParams := t.readParams, pioLimit := t.pioLimit,
                   dma := t.dma, obs := t.obs, answers := t.answers }) ∧
    ((∀ sectors, s.answers.sectors = some sectors → sectors.length ≠ n * size) → ∃ t, exec i s = .next t ∧
      ReadFails s.answers.presentAgain asked s t ∧ t.packet = { b := opcode :: p.toList, index := 12 } ∧
      t = { s with state := t.state, status := t.status, intReason := t.intReason, readParams := t.readParams,
                   pioLimit := t.pioLimit, intrq := t.intrq, obs := t.obs, packet := t.packet, error := t.error,
                   sense := t.sense, pio := t.pio, dma := t.dma, answers := t.answers })

/-- A sector read with the DMA bit clear fetches up to 16 sectors and offers their first chunk. R286, R291, R91 and, on failure, R290. -/
def Obligations.PioReadOffersTheFirstChunk : Prop :=
  ∀ (i : Instr) (opcode : Byte) (p : Params) (count size : Nat) (s : State), s.awaiting → s.ready → s.dmaEnable = false →
    readsSectors i opcode p count → 0 < count → sectorSize s.cfg (p.b1.extractLsb' 1 7) = some size → 2 ≤ s.byteCount.toNat →
    let n := min 16 count
    let lim := 2 * (s.byteCount.toNat / 2)
    let asked : List Query := [.isDiscPresent, .readSectors (readAddress p) n (p.b1.extractLsb' 1 7)]
    (∀ sectors, s.answers.sectors = some sectors → sectors.length = n * size → ∃ t, exec i s = .next t ∧
      PhaseToHost (sectors.take lim) 0x77#8 .readsectorPio asked s t ∧ t.byteCount.toNat = min lim (n * size) ∧ t.packet = { b := opcode :: p.toList, index := 12 } ∧
      t.readParams = { startSector := readAddress p + n, remaining := count - n, sectorType := p.b1.extractLsb' 1 7 } ∧
      t.pioLimit = s.byteCount ∧ t.dma.cursor = min lim (n * size) ∧ t.dma.size = n * size ∧
      (∀ a, a < n * size → Memory.read t.dma.data a = sectors.getD a 0) ∧
      (∀ a, n * size ≤ a → Memory.read t.dma.data a = Memory.read s.dma.data a) ∧
      t = { s with state := t.state, status := t.status, intReason := t.intReason, byteCount := t.byteCount, intrq := t.intrq,
                   packet := t.packet, readParams := t.readParams, pioLimit := t.pioLimit, pio := t.pio, dma := t.dma,
                   obs := t.obs, answers := t.answers }) ∧
    ((∀ sectors, s.answers.sectors = some sectors → sectors.length ≠ n * size) → ∃ t, exec i s = .next t ∧
      ReadFails s.answers.presentAgain asked s t ∧ t.packet = { b := opcode :: p.toList, index := 12 } ∧
      t = { s with state := t.state, status := t.status, intReason := t.intReason, readParams := t.readParams,
                   pioLimit := t.pioLimit, intrq := t.intrq, obs := t.obs, packet := t.packet, error := t.error,
                   sense := t.sense, pio := t.pio, dma := t.dma, answers := t.answers })

/-- DmaAvail returns the unread bytes in gds_readsector_dma and 0 elsewhere, and changes nothing. R296. -/
def Obligations.DmaAvailTellsTheUnreadBytes : Prop :=
  ∀ s : State, s.live →
    (s.state = .readsectorDma →
      exec .dmaAvail s = .next { s with obs := { s.obs with returned := some (.count (s.dma.size - s.dma.cursor)) } }) ∧
    (s.state ≠ .readsectorDma → exec .dmaAvail s = .next { s with obs := { s.obs with returned := some (.count 0) } })

/-- DmaPull returns exactly the bytes asked for, refills the buffer, completes or fails the command. R297, R295, R91, R290. That an open tray is found without asking the provider is log entry 11. -/
def Obligations.DmaPullMovesOn : Prop :=
  ∀ (len : Nat) (s : State), s.live → s.state = .readsectorDma → s.dma.cursor < s.dma.size →
    ∀ r : List Byte, r.length = len → (∀ j, j < len → r.getD j 0 = Memory.read s.dma.data (s.dma.cursor + j)) →
    let n := min 16 s.readParams.remaining
    let asked : List Query := [.readSectors s.readParams.startSector n s.readParams.sectorType]
    let u : State := { s.returning (.bytes r) with dma := { s.dma with cursor := s.dma.cursor + len } }
    (len < s.dma.size - s.dma.cursor → exec (.dmaPull len) s = .next u) ∧
    (len = s.dma.size - s.dma.cursor → s.readParams.remaining = 0 → ∃ t, exec (.dmaPull len) s = .next t ∧
      CommandEnds 0x40#8 .complete [] u t ∧
      t = { u with state := t.state, status := t.status, intReason := t.intReason, readParams := t.readParams,
                   pioLimit := t.pioLimit, intrq := t.intrq, obs := t.obs }) ∧
    (∀ size sectors, len = s.dma.size - s.dma.cursor → 0 < s.readParams.remaining →
      sectorSize s.cfg s.readParams.sectorType = some size → s.answers.sectors = some sectors → sectors.length = n * size →
      ∃ t, exec (.dmaPull len) s = .next t ∧ t.dma.cursor = 0 ∧ t.dma.size = n * size ∧
        (∀ a, a < n * size → Memory.read t.dma.data a = sectors.getD a 0) ∧
        (∀ a, n * size ≤ a → Memory.read t.dma.data a = Memory.read s.dma.data a) ∧
        t.readParams = { startSector := s.readParams.startSector + n, remaining := s.readParams.remaining - n,
                         sectorType := s.readParams.sectorType } ∧
        Shows asked [] u t ∧ t = { u with dma := t.dma, readParams := t.readParams, obs := t.obs }) ∧
    (∀ size, len = s.dma.size - s.dma.cursor → 0 < s.readParams.remaining →
      sectorSize s.cfg s.readParams.sectorType = some size →
      (∀ sectors, s.answers.sectors = some sectors → sectors.length ≠ n * size) →
      ∃ t, exec (.dmaPull len) s = .next t ∧ ReadFails s.answers.present asked u t ∧
        t = { u with state := t.state, status := t.status, error := t.error, sense := t.sense, intReason := t.intReason,
                     readParams := t.readParams, pioLimit := t.pioLimit, intrq := t.intrq, obs := t.obs, pio := t.pio,
                     dma := t.dma, answers := t.answers })

/-- CddaAdvance moves the frame as the tick-driven table says. R313, row by row, and R310: nothing but S.cdda and the unit status. -/
def Obligations.AdvanceFollowsTheTable : Prop :=
  ∀ s : State, s.live → (s.cdda.status = .playing →
      s.cdda.start.toNat ≤ s.cdda.current.toNat ∧ s.cdda.current.toNat ≤ s.cdda.last.toNat) →
    ∃ t, exec .cddaAdvance s = .next t ∧ t = { s with cdda := t.cdda, sectNum := t.sectNum } ∧ t.discFormat = s.discFormat ∧
      let cur := s.cdda.current.toNat
      (s.cdda.status ≠ .playing → t.cdda = s.cdda ∧ t.unitStatus = s.unitStatus) ∧
      (s.cdda.status = .playing → s.cdda.scan ≠ .reverse → cur + 1 < s.cdda.last.toNat →
        t.cdda = { s.cdda with current := t.cdda.current } ∧ t.cdda.current.toNat = cur + 1 ∧ t.unitStatus = s.unitStatus) ∧
      (s.cdda.status = .playing → s.cdda.scan ≠ .reverse → s.cdda.last.toNat ≤ cur + 1 → 0 < s.cdda.repeats.toNat →
        t.cdda = { s.cdda with current := s.cdda.start, repeats := t.cdda.repeats } ∧
        t.cdda.repeats.toNat + 1 = s.cdda.repeats.toNat ∧ t.unitStatus = s.unitStatus) ∧
      (s.cdda.status = .playing → s.cdda.scan ≠ .reverse → s.cdda.last.toNat ≤ cur + 1 → s.cdda.repeats.toNat = 0 →
        t.cdda = { s.cdda with current := s.cdda.last, status := .terminated, scan := .none } ∧ t.unitStatus = 2) ∧
      (s.cdda.status = .playing → s.cdda.scan = .reverse → s.cdda.start.toNat + 1 < cur →
        t.cdda = { s.cdda with current := t.cdda.current } ∧ t.cdda.current.toNat + 1 = cur ∧ t.unitStatus = s.unitStatus) ∧
      (s.cdda.status = .playing → s.cdda.scan = .reverse → cur ≤ s.cdda.start.toNat + 1 →
        t.cdda = { s.cdda with current := s.cdda.start, status := .paused, scan := .none } ∧ t.unitStatus = 1)

/-- Playing without a scan and without repeats terminates after exactly as many advances as frames are left. R314, for every range. -/
def Obligations.PlayingRunsToItsEnd : Prop :=
  ∀ (s : State) (k : Nat), s.live → s.cdda.status = .playing → s.cdda.scan = .none → s.cdda.repeats = 0 →
    s.cdda.start.toNat ≤ s.cdda.current.toNat → s.cdda.current.toNat < s.cdda.last.toNat →
    k ≤ s.cdda.last.toNat - s.cdda.current.toNat →
    ∃ t, execAll (List.replicate k .cddaAdvance) s = .next t ∧ t.cdda.current.toNat = s.cdda.current.toNat + k ∧
      (k < s.cdda.last.toNat - s.cdda.current.toNat → t.cdda.status = .playing) ∧
      (k = s.cdda.last.toNat - s.cdda.current.toNat →
        t.cdda.status = .terminated ∧ t.unitStatus = 2 ∧ exec .cddaAdvance t = .next t)

/-- TrayClose with the tray open closes it, forgets the TOC and reports the disc; with the tray closed it does nothing. R266. -/
def Obligations.TrayCloseRefreshesTheDrive : Prop :=
  ∀ s : State, s.live →
    (s.trayOpen = false → exec .trayClose s = .next s) ∧
    (s.trayOpen = true → ∃ t, exec .trayClose s = .next t ∧
      t = { s with
        trayOpen := false
        tocCache := none
        sectNum := if s.answers.present then 0x02 else 0x07
        answers := t.answers
        obs := { s.obs with queries := s.obs.queries ++ [.isDiscPresent] } })

/-- HardReset from every state sets every field of S to its reset value. R370 and the hard column of R50. -/
def Obligations.HardResetSetsEveryField : Prop :=
  ∀ s : State, ∃ t, exec .hardReset s = .next t ∧
    (∀ a, Memory.read t.pio.data a = 0) ∧ (∀ a, Memory.read t.dma.data a = 0) ∧
    t = { s with
      state := .waitcmd
      status := 0x40
      error := 0x00
      features := 0x00
      intReason := 0x00
      sectCount := 0x00
      sectNum := if s.answers.present then 0x02 else 0x07
      byteCount := 0x0000
      driveSel := 0x00
      intrq := false
      packet := { b := List.replicate 12 0, index := 0 }
      readParams := { startSector := 0, remaining := 0, sectorType := 0 }
      pioLimit := 0
      dmaEnable := false
      transferMode := 0x00
      pio := { data := t.pio.data, cursor := 0, size := 0, nextState := .pioEnd }
      dma := { data := t.dma.data, cursor := 0, size := 0 }
      cdda := { status := .noInfo, repeats := 0, current := 150, last := 150, start := 150, scan := .none }
      sense := { key := 0, asc := 0, ascq := 0 }
      hwInfo := s.cfg.hwInfoReset
      setMode := { offset := 0, length := 0 }
      tocCache := none
      trayOpen := false
      misuse := none
      refused := none
      answers := t.answers
      obs := { s.obs with queries := s.obs.queries ++ [.isDiscPresent] } }
end

