-- ==== Sys2Proof/Laws/State.lean ====
section
/-! SUPPORT. What each named update of the state does to each field: one lemma per field per update. -/

namespace Sys2Proof.Machine

open Sys2Proof

/-! ## One bit of the status register. -/

@[simp] theorem putStatus_state (i : Nat) (v : Bool) (s : State) : (s.putStatus i v).state = s.state := rfl
@[simp] theorem putStatus_status (i : Nat) (v : Bool) (s : State) : (s.putStatus i v).status = putBit s.status i v := rfl
@[simp] theorem putStatus_error (i : Nat) (v : Bool) (s : State) : (s.putStatus i v).error = s.error := rfl
@[simp] theorem putStatus_features (i : Nat) (v : Bool) (s : State) : (s.putStatus i v).features = s.features := rfl
@[simp] theorem putStatus_intReason (i : Nat) (v : Bool) (s : State) : (s.putStatus i v).intReason = s.intReason := rfl
@[simp] theorem putStatus_sectCount (i : Nat) (v : Bool) (s : State) : (s.putStatus i v).sectCount = s.sectCount := rfl
@[simp] theorem putStatus_sectNum (i : Nat) (v : Bool) (s : State) : (s.putStatus i v).sectNum = s.sectNum := rfl
@[simp] theorem putStatus_byteCount (i : Nat) (v : Bool) (s : State) : (s.putStatus i v).byteCount = s.byteCount := rfl
@[simp] theorem putStatus_driveSel (i : Nat) (v : Bool) (s : State) : (s.putStatus i v).driveSel = s.driveSel := rfl
@[simp] theorem putStatus_intrq (i : Nat) (v : Bool) (s : State) : (s.putStatus i v).intrq = s.intrq := rfl
@[simp] theorem putStatus_packet (i : Nat) (v : Bool) (s : State) : (s.putStatus i v).packet = s.packet := rfl
@[simp] theorem putStatus_readParams (i : Nat) (v : Bool) (s : State) : (s.putStatus i v).readParams = s.readParams := rfl
@[simp] theorem putStatus_pioLimit (i : Nat) (v : Bool) (s : State) : (s.putStatus i v).pioLimit = s.pioLimit := rfl
@[simp] theorem putStatus_dmaEnable (i : Nat) (v : Bool) (s : State) : (s.putStatus i v).dmaEnable = s.dmaEnable := rfl
@[simp] theorem putStatus_transferMode (i : Nat) (v : Bool) (s : State) : (s.putStatus i v).transferMode = s.transferMode := rfl
@[simp] theorem putStatus_pio (i : Nat) (v : Bool) (s : State) : (s.putStatus i v).pio = s.pio := rfl
@[simp] theorem putStatus_dma (i : Nat) (v : Bool) (s : State) : (s.putStatus i v).dma = s.dma := rfl
@[simp] theorem putStatus_cdda (i : Nat) (v : Bool) (s : State) : (s.putStatus i v).cdda = s.cdda := rfl
@[simp] theorem putStatus_sense (i : Nat) (v : Bool) (s : State) : (s.putStatus i v).sense = s.sense := rfl
@[simp] theorem putStatus_hwInfo (i : Nat) (v : Bool) (s : State) : (s.putStatus i v).hwInfo = s.hwInfo := rfl
@[simp] theorem putStatus_setMode (i : Nat) (v : Bool) (s : State) : (s.putStatus i v).setMode = s.setMode := rfl
@[simp] theorem putStatus_tocCache (i : Nat) (v : Bool) (s : State) : (s.putStatus i v).tocCache = s.tocCache := rfl
@[simp] theorem putStatus_trayOpen (i : Nat) (v : Bool) (s : State) : (s.putStatus i v).trayOpen = s.trayOpen := rfl
@[simp] theorem putStatus_misuse (i : Nat) (v : Bool) (s : State) : (s.putStatus i v).misuse = s.misuse := rfl
@[simp] theorem putStatus_refused (i : Nat) (v : Bool) (s : State) : (s.putStatus i v).refused = s.refused := rfl
@[simp] theorem putStatus_cfg (i : Nat) (v : Bool) (s : State) : (s.putStatus i v).cfg = s.cfg := rfl
@[simp] theorem putStatus_answers (i : Nat) (v : Bool) (s : State) : (s.putStatus i v).answers = s.answers := rfl
@[simp] theorem putStatus_obs (i : Nat) (v : Bool) (s : State) : (s.putStatus i v).obs = s.obs := rfl
@[simp] theorem putStatus_freeCount (i : Nat) (v : Bool) (s : State) : (s.putStatus i v).freeCount = s.freeCount := rfl
@[simp] theorem putStatus_inbox (i : Nat) (v : Bool) (s : State) : (s.putStatus i v).inbox = s.inbox := rfl

/-! ## CoD and IO. -/

@[simp] theorem putReason_state (c o : Bool) (s : State) : (s.putReason c o).state = s.state := rfl
@[simp] theorem putReason_status (c o : Bool) (s : State) : (s.putReason c o).status = s.status := rfl
@[simp] theorem putReason_error (c o : Bool) (s : State) : (s.putReason c o).error = s.error := rfl
@[simp] theorem putReason_features (c o : Bool) (s : State) : (s.putReason c o).features = s.features := rfl
@[simp] theorem putReason_intReason (c o : Bool) (s : State) : (s.putReason c o).intReason = putBit (putBit s.intReason codBit c) ioBit o := rfl
@[simp] theorem putReason_sectCount (c o : Bool) (s : State) : (s.putReason c o).sectCount = s.sectCount := rfl
@[simp] theorem putReason_sectNum (c o : Bool) (s : State) : (s.putReason c o).sectNum = s.sectNum := rfl
@[simp] theorem putReason_byteCount (c o : Bool) (s : State) : (s.putReason c o).byteCount = s.byteCount := rfl
@[simp] theorem putReason_driveSel (c o : Bool) (s : State) : (s.putReason c o).driveSel = s.driveSel := rfl
@[simp] theorem putReason_intrq (c o : Bool) (s : State) : (s.putReason c o).intrq = s.intrq := rfl
@[simp] theorem putReason_packet (c o : Bool) (s : State) : (s.putReason c o).packet = s.packet := rfl
@[simp] theorem putReason_readParams (c o : Bool) (s : State) : (s.putReason c o).readParams = s.readParams := rfl
@[simp] theorem putReason_pioLimit (c o : Bool) (s : State) : (s.putReason c o).pioLimit = s.pioLimit := rfl
@[simp] theorem putReason_dmaEnable (c o : Bool) (s : State) : (s.putReason c o).dmaEnable = s.dmaEnable := rfl
@[simp] theorem putReason_transferMode (c o : Bool) (s : State) : (s.putReason c o).transferMode = s.transferMode := rfl
@[simp] theorem putReason_pio (c o : Bool) (s : State) : (s.putReason c o).pio = s.pio := rfl
@[simp] theorem putReason_dma (c o : Bool) (s : State) : (s.putReason c o).dma = s.dma := rfl
@[simp] theorem putReason_cdda (c o : Bool) (s : State) : (s.putReason c o).cdda = s.cdda := rfl
@[simp] theorem putReason_sense (c o : Bool) (s : State) : (s.putReason c o).sense = s.sense := rfl
@[simp] theorem putReason_hwInfo (c o : Bool) (s : State) : (s.putReason c o).hwInfo = s.hwInfo := rfl
@[simp] theorem putReason_setMode (c o : Bool) (s : State) : (s.putReason c o).setMode = s.setMode := rfl
@[simp] theorem putReason_tocCache (c o : Bool) (s : State) : (s.putReason c o).tocCache = s.tocCache := rfl
@[simp] theorem putReason_trayOpen (c o : Bool) (s : State) : (s.putReason c o).trayOpen = s.trayOpen := rfl
@[simp] theorem putReason_misuse (c o : Bool) (s : State) : (s.putReason c o).misuse = s.misuse := rfl
@[simp] theorem putReason_refused (c o : Bool) (s : State) : (s.putReason c o).refused = s.refused := rfl
@[simp] theorem putReason_cfg (c o : Bool) (s : State) : (s.putReason c o).cfg = s.cfg := rfl
@[simp] theorem putReason_answers (c o : Bool) (s : State) : (s.putReason c o).answers = s.answers := rfl
@[simp] theorem putReason_obs (c o : Bool) (s : State) : (s.putReason c o).obs = s.obs := rfl
@[simp] theorem putReason_freeCount (c o : Bool) (s : State) : (s.putReason c o).freeCount = s.freeCount := rfl
@[simp] theorem putReason_inbox (c o : Bool) (s : State) : (s.putReason c o).inbox = s.inbox := rfl

/-! ## The unit status. -/

@[simp] theorem putUnit_state (v : BitVec 4) (s : State) : (s.putUnit v).state = s.state := rfl
@[simp] theorem putUnit_status (v : BitVec 4) (s : State) : (s.putUnit v).status = s.status := rfl
@[simp] theorem putUnit_error (v : BitVec 4) (s : State) : (s.putUnit v).error = s.error := rfl
@[simp] theorem putUnit_features (v : BitVec 4) (s : State) : (s.putUnit v).features = s.features := rfl
@[simp] theorem putUnit_intReason (v : BitVec 4) (s : State) : (s.putUnit v).intReason = s.intReason := rfl
@[simp] theorem putUnit_sectCount (v : BitVec 4) (s : State) : (s.putUnit v).sectCount = s.sectCount := rfl
@[simp] theorem putUnit_sectNum (v : BitVec 4) (s : State) : (s.putUnit v).sectNum = s.sectNum.extractLsb' 4 4 ++ v := rfl
@[simp] theorem putUnit_byteCount (v : BitVec 4) (s : State) : (s.putUnit v).byteCount = s.byteCount := rfl
@[simp] theorem putUnit_driveSel (v : BitVec 4) (s : State) : (s.putUnit v).driveSel = s.driveSel := rfl
@[simp] theorem putUnit_intrq (v : BitVec 4) (s : State) : (s.putUnit v).intrq = s.intrq := rfl
@[simp] theorem putUnit_packet (v : BitVec 4) (s : State) : (s.putUnit v).packet = s.packet := rfl
@[simp] theorem putUnit_readParams (v : BitVec 4) (s : State) : (s.putUnit v).readParams = s.readParams := rfl
@[simp] theorem putUnit_pioLimit (v : BitVec 4) (s : State) : (s.putUnit v).pioLimit = s.pioLimit := rfl
@[simp] theorem putUnit_dmaEnable (v : BitVec 4) (s : State) : (s.putUnit v).dmaEnable = s.dmaEnable := rfl
@[simp] theorem putUnit_transferMode (v : BitVec 4) (s : State) : (s.putUnit v).transferMode = s.transferMode := rfl
@[simp] theorem putUnit_pio (v : BitVec 4) (s : State) : (s.putUnit v).pio = s.pio := rfl
@[simp] theorem putUnit_dma (v : BitVec 4) (s : State) : (s.putUnit v).dma = s.dma := rfl
@[simp] theorem putUnit_cdda (v : BitVec 4) (s : State) : (s.putUnit v).cdda = s.cdda := rfl
@[simp] theorem putUnit_sense (v : BitVec 4) (s : State) : (s.putUnit v).sense = s.sense := rfl
@[simp] theorem putUnit_hwInfo (v : BitVec 4) (s : State) : (s.putUnit v).hwInfo = s.hwInfo := rfl
@[simp] theorem putUnit_setMode (v : BitVec 4) (s : State) : (s.putUnit v).setMode = s.setMode := rfl
@[simp] theorem putUnit_tocCache (v : BitVec 4) (s : State) : (s.putUnit v).tocCache = s.tocCache := rfl
@[simp] theorem putUnit_trayOpen (v : BitVec 4) (s : State) : (s.putUnit v).trayOpen = s.trayOpen := rfl
@[simp] theorem putUnit_misuse (v : BitVec 4) (s : State) : (s.putUnit v).misuse = s.misuse := rfl
@[simp] theorem putUnit_refused (v : BitVec 4) (s : State) : (s.putUnit v).refused = s.refused := rfl
@[simp] theorem putUnit_cfg (v : BitVec 4) (s : State) : (s.putUnit v).cfg = s.cfg := rfl
@[simp] theorem putUnit_answers (v : BitVec 4) (s : State) : (s.putUnit v).answers = s.answers := rfl
@[simp] theorem putUnit_obs (v : BitVec 4) (s : State) : (s.putUnit v).obs = s.obs := rfl
@[simp] theorem putUnit_freeCount (v : BitVec 4) (s : State) : (s.putUnit v).freeCount = s.freeCount := rfl
@[simp] theorem putUnit_inbox (v : BitVec 4) (s : State) : (s.putUnit v).inbox = s.inbox := rfl

/-! ## The DiscFormat. -/

@[simp] theorem putDiscFormat_state (v : BitVec 4) (s : State) : (s.putDiscFormat v).state = s.state := rfl
@[simp] theorem putDiscFormat_status (v : BitVec 4) (s : State) : (s.putDiscFormat v).status = s.status := rfl
@[simp] theorem putDiscFormat_error (v : BitVec 4) (s : State) : (s.putDiscFormat v).error = s.error := rfl
@[simp] theorem putDiscFormat_features (v : BitVec 4) (s : State) : (s.putDiscFormat v).features = s.features := rfl
@[simp] theorem putDiscFormat_intReason (v : BitVec 4) (s : State) : (s.putDiscFormat v).intReason = s.intReason := rfl
@[simp] theorem putDiscFormat_sectCount (v : BitVec 4) (s : State) : (s.putDiscFormat v).sectCount = s.sectCount := rfl
@[simp] theorem putDiscFormat_sectNum (v : BitVec 4) (s : State) : (s.putDiscFormat v).sectNum = v ++ s.sectNum.extractLsb' 0 4 := rfl
@[simp] theorem putDiscFormat_byteCount (v : BitVec 4) (s : State) : (s.putDiscFormat v).byteCount = s.byteCount := rfl
@[simp] theorem putDiscFormat_driveSel (v : BitVec 4) (s : State) : (s.putDiscFormat v).driveSel = s.driveSel := rfl
@[simp] theorem putDiscFormat_intrq (v : BitVec 4) (s : State) : (s.putDiscFormat v).intrq = s.intrq := rfl
@[simp] theorem putDiscFormat_packet (v : BitVec 4) (s : State) : (s.putDiscFormat v).packet = s.packet := rfl
@[simp] theorem putDiscFormat_readParams (v : BitVec 4) (s : State) : (s.putDiscFormat v).readParams = s.readParams := rfl
@[simp] theorem putDiscFormat_pioLimit (v : BitVec 4) (s : State) : (s.putDiscFormat v).pioLimit = s.pioLimit := rfl
@[simp] theorem putDiscFormat_dmaEnable (v : BitVec 4) (s : State) : (s.putDiscFormat v).dmaEnable = s.dmaEnable := rfl
@[simp] theorem putDiscFormat_transferMode (v : BitVec 4) (s : State) : (s.putDiscFormat v).transferMode = s.transferMode := rfl
@[simp] theorem putDiscFormat_pio (v : BitVec 4) (s : State) : (s.putDiscFormat v).pio = s.pio := rfl
@[simp] theorem putDiscFormat_dma (v : BitVec 4) (s : State) : (s.putDiscFormat v).dma = s.dma := rfl
@[simp] theorem putDiscFormat_cdda (v : BitVec 4) (s : State) : (s.putDiscFormat v).cdda = s.cdda := rfl
@[simp] theorem putDiscFormat_sense (v : BitVec 4) (s : State) : (s.putDiscFormat v).sense = s.sense := rfl
@[simp] theorem putDiscFormat_hwInfo (v : BitVec 4) (s : State) : (s.putDiscFormat v).hwInfo = s.hwInfo := rfl
@[simp] theorem putDiscFormat_setMode (v : BitVec 4) (s : State) : (s.putDiscFormat v).setMode = s.setMode := rfl
@[simp] theorem putDiscFormat_tocCache (v : BitVec 4) (s : State) : (s.putDiscFormat v).tocCache = s.tocCache := rfl
@[simp] theorem putDiscFormat_trayOpen (v : BitVec 4) (s : State) : (s.putDiscFormat v).trayOpen = s.trayOpen := rfl
@[simp] theorem putDiscFormat_misuse (v : BitVec 4) (s : State) : (s.putDiscFormat v).misuse = s.misuse := rfl
@[simp] theorem putDiscFormat_refused (v : BitVec 4) (s : State) : (s.putDiscFormat v).refused = s.refused := rfl
@[simp] theorem putDiscFormat_cfg (v : BitVec 4) (s : State) : (s.putDiscFormat v).cfg = s.cfg := rfl
@[simp] theorem putDiscFormat_answers (v : BitVec 4) (s : State) : (s.putDiscFormat v).answers = s.answers := rfl
@[simp] theorem putDiscFormat_obs (v : BitVec 4) (s : State) : (s.putDiscFormat v).obs = s.obs := rfl
@[simp] theorem putDiscFormat_freeCount (v : BitVec 4) (s : State) : (s.putDiscFormat v).freeCount = s.freeCount := rfl
@[simp] theorem putDiscFormat_inbox (v : BitVec 4) (s : State) : (s.putDiscFormat v).inbox = s.inbox := rfl

/-! ## A returned value. -/

@[simp] theorem returning_state (v : Returned) (s : State) : (s.returning v).state = s.state := rfl
@[simp] theorem returning_status (v : Returned) (s : State) : (s.returning v).status = s.status := rfl
@[simp] theorem returning_error (v : Returned) (s : State) : (s.returning v).error = s.error := rfl
@[simp] theorem returning_features (v : Returned) (s : State) : (s.returning v).features = s.features := rfl
@[simp] theorem returning_intReason (v : Returned) (s : State) : (s.returning v).intReason = s.intReason := rfl
@[simp] theorem returning_sectCount (v : Returned) (s : State) : (s.returning v).sectCount = s.sectCount := rfl
@[simp] theorem returning_sectNum (v : Returned) (s : State) : (s.returning v).sectNum = s.sectNum := rfl
@[simp] theorem returning_byteCount (v : Returned) (s : State) : (s.returning v).byteCount = s.byteCount := rfl
@[simp] theorem returning_driveSel (v : Returned) (s : State) : (s.returning v).driveSel = s.driveSel := rfl
@[simp] theorem returning_intrq (v : Returned) (s : State) : (s.returning v).intrq = s.intrq := rfl
@[simp] theorem returning_packet (v : Returned) (s : State) : (s.returning v).packet = s.packet := rfl
@[simp] theorem returning_readParams (v : Returned) (s : State) : (s.returning v).readParams = s.readParams := rfl
@[simp] theorem returning_pioLimit (v : Returned) (s : State) : (s.returning v).pioLimit = s.pioLimit := rfl
@[simp] theorem returning_dmaEnable (v : Returned) (s : State) : (s.returning v).dmaEnable = s.dmaEnable := rfl
@[simp] theorem returning_transferMode (v : Returned) (s : State) : (s.returning v).transferMode = s.transferMode := rfl
@[simp] theorem returning_pio (v : Returned) (s : State) : (s.returning v).pio = s.pio := rfl
@[simp] theorem returning_dma (v : Returned) (s : State) : (s.returning v).dma = s.dma := rfl
@[simp] theorem returning_cdda (v : Returned) (s : State) : (s.returning v).cdda = s.cdda := rfl
@[simp] theorem returning_sense (v : Returned) (s : State) : (s.returning v).sense = s.sense := rfl
@[simp] theorem returning_hwInfo (v : Returned) (s : State) : (s.returning v).hwInfo = s.hwInfo := rfl
@[simp] theorem returning_setMode (v : Returned) (s : State) : (s.returning v).setMode = s.setMode := rfl
@[simp] theorem returning_tocCache (v : Returned) (s : State) : (s.returning v).tocCache = s.tocCache := rfl
@[simp] theorem returning_trayOpen (v : Returned) (s : State) : (s.returning v).trayOpen = s.trayOpen := rfl
@[simp] theorem returning_misuse (v : Returned) (s : State) : (s.returning v).misuse = s.misuse := rfl
@[simp] theorem returning_refused (v : Returned) (s : State) : (s.returning v).refused = s.refused := rfl
@[simp] theorem returning_cfg (v : Returned) (s : State) : (s.returning v).cfg = s.cfg := rfl
@[simp] theorem returning_answers (v : Returned) (s : State) : (s.returning v).answers = s.answers := rfl
@[simp] theorem returning_obs (v : Returned) (s : State) : (s.returning v).obs = { s.obs with returned := some v } := rfl
@[simp] theorem returning_freeCount (v : Returned) (s : State) : (s.returning v).freeCount = s.freeCount := rfl
@[simp] theorem returning_inbox (v : Returned) (s : State) : (s.returning v).inbox = s.inbox := rfl

/-! ## A query. -/

@[simp] theorem asking_state (q : Query) (s : State) : (s.asking q).state = s.state := rfl
@[simp] theorem asking_status (q : Query) (s : State) : (s.asking q).status = s.status := rfl
@[simp] theorem asking_error (q : Query) (s : State) : (s.asking q).error = s.error := rfl
@[simp] theorem asking_features (q : Query) (s : State) : (s.asking q).features = s.features := rfl
@[simp] theorem asking_intReason (q : Query) (s : State) : (s.asking q).intReason = s.intReason := rfl
@[simp] theorem asking_sectCount (q : Query) (s : State) : (s.asking q).sectCount = s.sectCount := rfl
@[simp] theorem asking_sectNum (q : Query) (s : State) : (s.asking q).sectNum = s.sectNum := rfl
@[simp] theorem asking_byteCount (q : Query) (s : State) : (s.asking q).byteCount = s.byteCount := rfl
@[simp] theorem asking_driveSel (q : Query) (s : State) : (s.asking q).driveSel = s.driveSel := rfl
@[simp] theorem asking_intrq (q : Query) (s : State) : (s.asking q).intrq = s.intrq := rfl
@[simp] theorem asking_packet (q : Query) (s : State) : (s.asking q).packet = s.packet := rfl
@[simp] theorem asking_readParams (q : Query) (s : State) : (s.asking q).readParams = s.readParams := rfl
@[simp] theorem asking_pioLimit (q : Query) (s : State) : (s.asking q).pioLimit = s.pioLimit := rfl
@[simp] theorem asking_dmaEnable (q : Query) (s : State) : (s.asking q).dmaEnable = s.dmaEnable := rfl
@[simp] theorem asking_transferMode (q : Query) (s : State) : (s.asking q).transferMode = s.transferMode := rfl
@[simp] theorem asking_pio (q : Query) (s : State) : (s.asking q).pio = s.pio := rfl
@[simp] theorem asking_dma (q : Query) (s : State) : (s.asking q).dma = s.dma := rfl
@[simp] theorem asking_cdda (q : Query) (s : State) : (s.asking q).cdda = s.cdda := rfl
@[simp] theorem asking_sense (q : Query) (s : State) : (s.asking q).sense = s.sense := rfl
@[simp] theorem asking_hwInfo (q : Query) (s : State) : (s.asking q).hwInfo = s.hwInfo := rfl
@[simp] theorem asking_setMode (q : Query) (s : State) : (s.asking q).setMode = s.setMode := rfl
@[simp] theorem asking_tocCache (q : Query) (s : State) : (s.asking q).tocCache = s.tocCache := rfl
@[simp] theorem asking_trayOpen (q : Query) (s : State) : (s.asking q).trayOpen = s.trayOpen := rfl
@[simp] theorem asking_misuse (q : Query) (s : State) : (s.asking q).misuse = s.misuse := rfl
@[simp] theorem asking_refused (q : Query) (s : State) : (s.asking q).refused = s.refused := rfl
@[simp] theorem asking_cfg (q : Query) (s : State) : (s.asking q).cfg = s.cfg := rfl
@[simp] theorem asking_answers (q : Query) (s : State) : (s.asking q).answers = s.answers := rfl
@[simp] theorem asking_obs (q : Query) (s : State) : (s.asking q).obs = { s.obs with queries := s.obs.queries ++ [q] } := rfl
@[simp] theorem asking_freeCount (q : Query) (s : State) : (s.asking q).freeCount = s.freeCount := rfl
@[simp] theorem asking_inbox (q : Query) (s : State) : (s.asking q).inbox = s.inbox := rfl

/-! ## The TOC cache emptied. -/

@[simp] theorem dropToc_state (s : State) : (s.dropToc).state = s.state := rfl
@[simp] theorem dropToc_status (s : State) : (s.dropToc).status = s.status := rfl
@[simp] theorem dropToc_error (s : State) : (s.dropToc).error = s.error := rfl
@[simp] theorem dropToc_features (s : State) : (s.dropToc).features = s.features := rfl
@[simp] theorem dropToc_intReason (s : State) : (s.dropToc).intReason = s.intReason := rfl
@[simp] theorem dropToc_sectCount (s : State) : (s.dropToc).sectCount = s.sectCount := rfl
@[simp] theorem dropToc_sectNum (s : State) : (s.dropToc).sectNum = 0#4 ++ s.sectNum.extractLsb' 0 4 := rfl
@[simp] theorem dropToc_byteCount (s : State) : (s.dropToc).byteCount = s.byteCount := rfl
@[simp] theorem dropToc_driveSel (s : State) : (s.dropToc).driveSel = s.driveSel := rfl
@[simp] theorem dropToc_intrq (s : State) : (s.dropToc).intrq = s.intrq := rfl
@[simp] theorem dropToc_packet (s : State) : (s.dropToc).packet = s.packet := rfl
@[simp] theorem dropToc_readParams (s : State) : (s.dropToc).readParams = s.readParams := rfl
@[simp] theorem dropToc_pioLimit (s : State) : (s.dropToc).pioLimit = s.pioLimit := rfl
@[simp] theorem dropToc_dmaEnable (s : State) : (s.dropToc).dmaEnable = s.dmaEnable := rfl
@[simp] theorem dropToc_transferMode (s : State) : (s.dropToc).transferMode = s.transferMode := rfl
@[simp] theorem dropToc_pio (s : State) : (s.dropToc).pio = s.pio := rfl
@[simp] theorem dropToc_dma (s : State) : (s.dropToc).dma = s.dma := rfl
@[simp] theorem dropToc_cdda (s : State) : (s.dropToc).cdda = s.cdda := rfl
@[simp] theorem dropToc_sense (s : State) : (s.dropToc).sense = s.sense := rfl
@[simp] theorem dropToc_hwInfo (s : State) : (s.dropToc).hwInfo = s.hwInfo := rfl
@[simp] theorem dropToc_setMode (s : State) : (s.dropToc).setMode = s.setMode := rfl
@[simp] theorem dropToc_tocCache (s : State) : (s.dropToc).tocCache = none := rfl
@[simp] theorem dropToc_trayOpen (s : State) : (s.dropToc).trayOpen = s.trayOpen := rfl
@[simp] theorem dropToc_misuse (s : State) : (s.dropToc).misuse = s.misuse := rfl
@[simp] theorem dropToc_refused (s : State) : (s.dropToc).refused = s.refused := rfl
@[simp] theorem dropToc_cfg (s : State) : (s.dropToc).cfg = s.cfg := rfl
@[simp] theorem dropToc_answers (s : State) : (s.dropToc).answers = s.answers := rfl
@[simp] theorem dropToc_obs (s : State) : (s.dropToc).obs = s.obs := rfl
@[simp] theorem dropToc_freeCount (s : State) : (s.dropToc).freeCount = s.freeCount := rfl
@[simp] theorem dropToc_inbox (s : State) : (s.dropToc).inbox = s.inbox := rfl

/-! ## The TOC cache filled. -/

@[simp] theorem keepToc_state (t : Toc) (s : State) : (s.keepToc t).state = s.state := rfl
@[simp] theorem keepToc_status (t : Toc) (s : State) : (s.keepToc t).status = s.status := rfl
@[simp] theorem keepToc_error (t : Toc) (s : State) : (s.keepToc t).error = s.error := rfl
@[simp] theorem keepToc_features (t : Toc) (s : State) : (s.keepToc t).features = s.features := rfl
@[simp] theorem keepToc_intReason (t : Toc) (s : State) : (s.keepToc t).intReason = s.intReason := rfl
@[simp] theorem keepToc_sectCount (t : Toc) (s : State) : (s.keepToc t).sectCount = s.sectCount := rfl
@[simp] theorem keepToc_sectNum (t : Toc) (s : State) : (s.keepToc t).sectNum = t.discFormat ++ s.sectNum.extractLsb' 0 4 := rfl
@[simp] theorem keepToc_byteCount (t : Toc) (s : State) : (s.keepToc t).byteCount = s.byteCount := rfl
@[simp] theorem keepToc_driveSel (t : Toc) (s : State) : (s.keepToc t).driveSel = s.driveSel := rfl
@[simp] theorem keepToc_intrq (t : Toc) (s : State) : (s.keepToc t).intrq = s.intrq := rfl
@[simp] theorem keepToc_packet (t : Toc) (s : State) : (s.keepToc t).packet = s.packet := rfl
@[simp] theorem keepToc_readParams (t : Toc) (s : State) : (s.keepToc t).readParams = s.readParams := rfl
@[simp] theorem keepToc_pioLimit (t : Toc) (s : State) : (s.keepToc t).pioLimit = s.pioLimit := rfl
@[simp] theorem keepToc_dmaEnable (t : Toc) (s : State) : (s.keepToc t).dmaEnable = s.dmaEnable := rfl
@[simp] theorem keepToc_transferMode (t : Toc) (s : State) : (s.keepToc t).transferMode = s.transferMode := rfl
@[simp] theorem keepToc_pio (t : Toc) (s : State) : (s.keepToc t).pio = s.pio := rfl
@[simp] theorem keepToc_dma (t : Toc) (s : State) : (s.keepToc t).dma = s.dma := rfl
@[simp] theorem keepToc_cdda (t : Toc) (s : State) : (s.keepToc t).cdda = s.cdda := rfl
@[simp] theorem keepToc_sense (t : Toc) (s : State) : (s.keepToc t).sense = s.sense := rfl
@[simp] theorem keepToc_hwInfo (t : Toc) (s : State) : (s.keepToc t).hwInfo = s.hwInfo := rfl
@[simp] theorem keepToc_setMode (t : Toc) (s : State) : (s.keepToc t).setMode = s.setMode := rfl
@[simp] theorem keepToc_tocCache (t : Toc) (s : State) : (s.keepToc t).tocCache = some t := rfl
@[simp] theorem keepToc_trayOpen (t : Toc) (s : State) : (s.keepToc t).trayOpen = s.trayOpen := rfl
@[simp] theorem keepToc_misuse (t : Toc) (s : State) : (s.keepToc t).misuse = s.misuse := rfl
@[simp] theorem keepToc_refused (t : Toc) (s : State) : (s.keepToc t).refused = s.refused := rfl
@[simp] theorem keepToc_cfg (t : Toc) (s : State) : (s.keepToc t).cfg = s.cfg := rfl
@[simp] theorem keepToc_answers (t : Toc) (s : State) : (s.keepToc t).answers = s.answers := rfl
@[simp] theorem keepToc_obs (t : Toc) (s : State) : (s.keepToc t).obs = s.obs := rfl
@[simp] theorem keepToc_freeCount (t : Toc) (s : State) : (s.keepToc t).freeCount = s.freeCount := rfl
@[simp] theorem keepToc_inbox (t : Toc) (s : State) : (s.keepToc t).inbox = s.inbox := rfl

/-! ## An interrupt raised. -/

@[simp] theorem raiseIrq_state (k : IrqKind) (s : State) : (raiseIrq k s).state = s.state := rfl
@[simp] theorem raiseIrq_status (k : IrqKind) (s : State) : (raiseIrq k s).status = s.status := rfl
@[simp] theorem raiseIrq_error (k : IrqKind) (s : State) : (raiseIrq k s).error = s.error := rfl
@[simp] theorem raiseIrq_features (k : IrqKind) (s : State) : (raiseIrq k s).features = s.features := rfl
@[simp] theorem raiseIrq_intReason (k : IrqKind) (s : State) : (raiseIrq k s).intReason = s.intReason := rfl
@[simp] theorem raiseIrq_sectCount (k : IrqKind) (s : State) : (raiseIrq k s).sectCount = s.sectCount := rfl
@[simp] theorem raiseIrq_sectNum (k : IrqKind) (s : State) : (raiseIrq k s).sectNum = s.sectNum := rfl
@[simp] theorem raiseIrq_byteCount (k : IrqKind) (s : State) : (raiseIrq k s).byteCount = s.byteCount := rfl
@[simp] theorem raiseIrq_driveSel (k : IrqKind) (s : State) : (raiseIrq k s).driveSel = s.driveSel := rfl
@[simp] theorem raiseIrq_intrq (k : IrqKind) (s : State) : (raiseIrq k s).intrq = true := rfl
@[simp] theorem raiseIrq_packet (k : IrqKind) (s : State) : (raiseIrq k s).packet = s.packet := rfl
@[simp] theorem raiseIrq_readParams (k : IrqKind) (s : State) : (raiseIrq k s).readParams = s.readParams := rfl
@[simp] theorem raiseIrq_pioLimit (k : IrqKind) (s : State) : (raiseIrq k s).pioLimit = s.pioLimit := rfl
@[simp] theorem raiseIrq_dmaEnable (k : IrqKind) (s : State) : (raiseIrq k s).dmaEnable = s.dmaEnable := rfl
@[simp] theorem raiseIrq_transferMode (k : IrqKind) (s : State) : (raiseIrq k s).transferMode = s.transferMode := rfl
@[simp] theorem raiseIrq_pio (k : IrqKind) (s : State) : (raiseIrq k s).pio = s.pio := rfl
@[simp] theorem raiseIrq_dma (k : IrqKind) (s : State) : (raiseIrq k s).dma = s.dma := rfl
@[simp] theorem raiseIrq_cdda (k : IrqKind) (s : State) : (raiseIrq k s).cdda = s.cdda := rfl
@[simp] theorem raiseIrq_sense (k : IrqKind) (s : State) : (raiseIrq k s).sense = s.sense := rfl
@[simp] theorem raiseIrq_hwInfo (k : IrqKind) (s : State) : (raiseIrq k s).hwInfo = s.hwInfo := rfl
@[simp] theorem raiseIrq_setMode (k : IrqKind) (s : State) : (raiseIrq k s).setMode = s.setMode := rfl
@[simp] theorem raiseIrq_tocCache (k : IrqKind) (s : State) : (raiseIrq k s).tocCache = s.tocCache := rfl
@[simp] theorem raiseIrq_trayOpen (k : IrqKind) (s : State) : (raiseIrq k s).trayOpen = s.trayOpen := rfl
@[simp] theorem raiseIrq_misuse (k : IrqKind) (s : State) : (raiseIrq k s).misuse = s.misuse := rfl
@[simp] theorem raiseIrq_refused (k : IrqKind) (s : State) : (raiseIrq k s).refused = s.refused := rfl
@[simp] theorem raiseIrq_cfg (k : IrqKind) (s : State) : (raiseIrq k s).cfg = s.cfg := rfl
@[simp] theorem raiseIrq_answers (k : IrqKind) (s : State) : (raiseIrq k s).answers = s.answers := rfl
@[simp] theorem raiseIrq_obs (k : IrqKind) (s : State) : (raiseIrq k s).obs = { s.obs with irqs := s.obs.irqs ++ [k] } := rfl
@[simp] theorem raiseIrq_freeCount (k : IrqKind) (s : State) : (raiseIrq k s).freeCount = s.freeCount := rfl
@[simp] theorem raiseIrq_inbox (k : IrqKind) (s : State) : (raiseIrq k s).inbox = s.inbox := rfl

/-! ## The PioBuffer cleared. -/

@[simp] theorem pioClear_state (s : State) : (pioClear s).state = s.state := rfl
@[simp] theorem pioClear_status (s : State) : (pioClear s).status = s.status := rfl
@[simp] theorem pioClear_error (s : State) : (pioClear s).error = s.error := rfl
@[simp] theorem pioClear_features (s : State) : (pioClear s).features = s.features := rfl
@[simp] theorem pioClear_intReason (s : State) : (pioClear s).intReason = s.intReason := rfl
@[simp] theorem pioClear_sectCount (s : State) : (pioClear s).sectCount = s.sectCount := rfl
@[simp] theorem pioClear_sectNum (s : State) : (pioClear s).sectNum = s.sectNum := rfl
@[simp] theorem pioClear_byteCount (s : State) : (pioClear s).byteCount = s.byteCount := rfl
@[simp] theorem pioClear_driveSel (s : State) : (pioClear s).driveSel = s.driveSel := rfl
@[simp] theorem pioClear_intrq (s : State) : (pioClear s).intrq = s.intrq := rfl
@[simp] theorem pioClear_packet (s : State) : (pioClear s).packet = s.packet := rfl
@[simp] theorem pioClear_readParams (s : State) : (pioClear s).readParams = s.readParams := rfl
@[simp] theorem pioClear_pioLimit (s : State) : (pioClear s).pioLimit = s.pioLimit := rfl
@[simp] theorem pioClear_dmaEnable (s : State) : (pioClear s).dmaEnable = s.dmaEnable := rfl
@[simp] theorem pioClear_transferMode (s : State) : (pioClear s).transferMode = s.transferMode := rfl
@[simp] theorem pioClear_pio (s : State) : (pioClear s).pio = { s.pio with cursor := 0, size := 0, nextState := .pioEnd } := rfl
@[simp] theorem pioClear_dma (s : State) : (pioClear s).dma = s.dma := rfl
@[simp] theorem pioClear_cdda (s : State) : (pioClear s).cdda = s.cdda := rfl
@[simp] theorem pioClear_sense (s : State) : (pioClear s).sense = s.sense := rfl
@[simp] theorem pioClear_hwInfo (s : State) : (pioClear s).hwInfo = s.hwInfo := rfl
@[simp] theorem pioClear_setMode (s : State) : (pioClear s).setMode = s.setMode := rfl
@[simp] theorem pioClear_tocCache (s : State) : (pioClear s).tocCache = s.tocCache := rfl
@[simp] theorem pioClear_trayOpen (s : State) : (pioClear s).trayOpen = s.trayOpen := rfl
@[simp] theorem pioClear_misuse (s : State) : (pioClear s).misuse = s.misuse := rfl
@[simp] theorem pioClear_refused (s : State) : (pioClear s).refused = s.refused := rfl
@[simp] theorem pioClear_cfg (s : State) : (pioClear s).cfg = s.cfg := rfl
@[simp] theorem pioClear_answers (s : State) : (pioClear s).answers = s.answers := rfl
@[simp] theorem pioClear_obs (s : State) : (pioClear s).obs = s.obs := rfl
@[simp] theorem pioClear_freeCount (s : State) : (pioClear s).freeCount = s.freeCount := rfl
@[simp] theorem pioClear_inbox (s : State) : (pioClear s).inbox = s.inbox := rfl

/-! ## The DmaBuffer cleared. -/

@[simp] theorem dmaClear_state (s : State) : (dmaClear s).state = s.state := rfl
@[simp] theorem dmaClear_status (s : State) : (dmaClear s).status = s.status := rfl
@[simp] theorem dmaClear_error (s : State) : (dmaClear s).error = s.error := rfl
@[simp] theorem dmaClear_features (s : State) : (dmaClear s).features = s.features := rfl
@[simp] theorem dmaClear_intReason (s : State) : (dmaClear s).intReason = s.intReason := rfl
@[simp] theorem dmaClear_sectCount (s : State) : (dmaClear s).sectCount = s.sectCount := rfl
@[simp] theorem dmaClear_sectNum (s : State) : (dmaClear s).sectNum = s.sectNum := rfl
@[simp] theorem dmaClear_byteCount (s : State) : (dmaClear s).byteCount = s.byteCount := rfl
@[simp] theorem dmaClear_driveSel (s : State) : (dmaClear s).driveSel = s.driveSel := rfl
@[simp] theorem dmaClear_intrq (s : State) : (dmaClear s).intrq = s.intrq := rfl
@[simp] theorem dmaClear_packet (s : State) : (dmaClear s).packet = s.packet := rfl
@[simp] theorem dmaClear_readParams (s : State) : (dmaClear s).readParams = s.readParams := rfl
@[simp] theorem dmaClear_pioLimit (s : State) : (dmaClear s).pioLimit = s.pioLimit := rfl
@[simp] theorem dmaClear_dmaEnable (s : State) : (dmaClear s).dmaEnable = s.dmaEnable := rfl
@[simp] theorem dmaClear_transferMode (s : State) : (dmaClear s).transferMode = s.transferMode := rfl
@[simp] theorem dmaClear_pio (s : State) : (dmaClear s).pio = s.pio := rfl
@[simp] theorem dmaClear_dma (s : State) : (dmaClear s).dma = { s.dma with cursor := 0, size := 0 } := rfl
@[simp] theorem dmaClear_cdda (s : State) : (dmaClear s).cdda = s.cdda := rfl
@[simp] theorem dmaClear_sense (s : State) : (dmaClear s).sense = s.sense := rfl
@[simp] theorem dmaClear_hwInfo (s : State) : (dmaClear s).hwInfo = s.hwInfo := rfl
@[simp] theorem dmaClear_setMode (s : State) : (dmaClear s).setMode = s.setMode := rfl
@[simp] theorem dmaClear_tocCache (s : State) : (dmaClear s).tocCache = s.tocCache := rfl
@[simp] theorem dmaClear_trayOpen (s : State) : (dmaClear s).trayOpen = s.trayOpen := rfl
@[simp] theorem dmaClear_misuse (s : State) : (dmaClear s).misuse = s.misuse := rfl
@[simp] theorem dmaClear_refused (s : State) : (dmaClear s).refused = s.refused := rfl
@[simp] theorem dmaClear_cfg (s : State) : (dmaClear s).cfg = s.cfg := rfl
@[simp] theorem dmaClear_answers (s : State) : (dmaClear s).answers = s.answers := rfl
@[simp] theorem dmaClear_obs (s : State) : (dmaClear s).obs = s.obs := rfl
@[simp] theorem dmaClear_freeCount (s : State) : (dmaClear s).freeCount = s.freeCount := rfl
@[simp] theorem dmaClear_inbox (s : State) : (dmaClear s).inbox = s.inbox := rfl

/-! ## The PioBuffer loaded. -/

@[simp] theorem pioLoad_state (b : List Byte) (s : State) : (pioLoad b s).state = s.state := rfl
@[simp] theorem pioLoad_status (b : List Byte) (s : State) : (pioLoad b s).status = s.status := rfl
@[simp] theorem pioLoad_error (b : List Byte) (s : State) : (pioLoad b s).error = s.error := rfl
@[simp] theorem pioLoad_features (b : List Byte) (s : State) : (pioLoad b s).features = s.features := rfl
@[simp] theorem pioLoad_intReason (b : List Byte) (s : State) : (pioLoad b s).intReason = s.intReason := rfl
@[simp] theorem pioLoad_sectCount (b : List Byte) (s : State) : (pioLoad b s).sectCount = s.sectCount := rfl
@[simp] theorem pioLoad_sectNum (b : List Byte) (s : State) : (pioLoad b s).sectNum = s.sectNum := rfl
@[simp] theorem pioLoad_byteCount (b : List Byte) (s : State) : (pioLoad b s).byteCount = s.byteCount := rfl
@[simp] theorem pioLoad_driveSel (b : List Byte) (s : State) : (pioLoad b s).driveSel = s.driveSel := rfl
@[simp] theorem pioLoad_intrq (b : List Byte) (s : State) : (pioLoad b s).intrq = s.intrq := rfl
@[simp] theorem pioLoad_packet (b : List Byte) (s : State) : (pioLoad b s).packet = s.packet := rfl
@[simp] theorem pioLoad_readParams (b : List Byte) (s : State) : (pioLoad b s).readParams = s.readParams := rfl
@[simp] theorem pioLoad_pioLimit (b : List Byte) (s : State) : (pioLoad b s).pioLimit = s.pioLimit := rfl
@[simp] theorem pioLoad_dmaEnable (b : List Byte) (s : State) : (pioLoad b s).dmaEnable = s.dmaEnable := rfl
@[simp] theorem pioLoad_transferMode (b : List Byte) (s : State) : (pioLoad b s).transferMode = s.transferMode := rfl
@[simp] theorem pioLoad_pio (b : List Byte) (s : State) : (pioLoad b s).pio = { s.pio with data := Memory.load s.pio.data (evenBytes b) } := rfl
@[simp] theorem pioLoad_dma (b : List Byte) (s : State) : (pioLoad b s).dma = s.dma := rfl
@[simp] theorem pioLoad_cdda (b : List Byte) (s : State) : (pioLoad b s).cdda = s.cdda := rfl
@[simp] theorem pioLoad_sense (b : List Byte) (s : State) : (pioLoad b s).sense = s.sense := rfl
@[simp] theorem pioLoad_hwInfo (b : List Byte) (s : State) : (pioLoad b s).hwInfo = s.hwInfo := rfl
@[simp] theorem pioLoad_setMode (b : List Byte) (s : State) : (pioLoad b s).setMode = s.setMode := rfl
@[simp] theorem pioLoad_tocCache (b : List Byte) (s : State) : (pioLoad b s).tocCache = s.tocCache := rfl
@[simp] theorem pioLoad_trayOpen (b : List Byte) (s : State) : (pioLoad b s).trayOpen = s.trayOpen := rfl
@[simp] theorem pioLoad_misuse (b : List Byte) (s : State) : (pioLoad b s).misuse = s.misuse := rfl
@[simp] theorem pioLoad_refused (b : List Byte) (s : State) : (pioLoad b s).refused = s.refused := rfl
@[simp] theorem pioLoad_cfg (b : List Byte) (s : State) : (pioLoad b s).cfg = s.cfg := rfl
@[simp] theorem pioLoad_answers (b : List Byte) (s : State) : (pioLoad b s).answers = s.answers := rfl
@[simp] theorem pioLoad_obs (b : List Byte) (s : State) : (pioLoad b s).obs = s.obs := rfl
@[simp] theorem pioLoad_freeCount (b : List Byte) (s : State) : (pioLoad b s).freeCount = s.freeCount := rfl
@[simp] theorem pioLoad_inbox (b : List Byte) (s : State) : (pioLoad b s).inbox = s.inbox := rfl

/-! ## An input taken. -/

@[simp] theorem takeInput_state (x : Input) (l : List Input) (s : State) : (takeInput x l s).state = s.state := rfl
@[simp] theorem takeInput_status (x : Input) (l : List Input) (s : State) : (takeInput x l s).status = s.status := rfl
@[simp] theorem takeInput_error (x : Input) (l : List Input) (s : State) : (takeInput x l s).error = s.error := rfl
@[simp] theorem takeInput_features (x : Input) (l : List Input) (s : State) : (takeInput x l s).features = s.features := rfl
@[simp] theorem takeInput_intReason (x : Input) (l : List Input) (s : State) : (takeInput x l s).intReason = s.intReason := rfl
@[simp] theorem takeInput_sectCount (x : Input) (l : List Input) (s : State) : (takeInput x l s).sectCount = s.sectCount := rfl
@[simp] theorem takeInput_sectNum (x : Input) (l : List Input) (s : State) : (takeInput x l s).sectNum = s.sectNum := rfl
@[simp] theorem takeInput_byteCount (x : Input) (l : List Input) (s : State) : (takeInput x l s).byteCount = s.byteCount := rfl
@[simp] theorem takeInput_driveSel (x : Input) (l : List Input) (s : State) : (takeInput x l s).driveSel = s.driveSel := rfl
@[simp] theorem takeInput_intrq (x : Input) (l : List Input) (s : State) : (takeInput x l s).intrq = s.intrq := rfl
@[simp] theorem takeInput_packet (x : Input) (l : List Input) (s : State) : (takeInput x l s).packet = s.packet := rfl
@[simp] theorem takeInput_readParams (x : Input) (l : List Input) (s : State) : (takeInput x l s).readParams = s.readParams := rfl
@[simp] theorem takeInput_pioLimit (x : Input) (l : List Input) (s : State) : (takeInput x l s).pioLimit = s.pioLimit := rfl
@[simp] theorem takeInput_dmaEnable (x : Input) (l : List Input) (s : State) : (takeInput x l s).dmaEnable = s.dmaEnable := rfl
@[simp] theorem takeInput_transferMode (x : Input) (l : List Input) (s : State) : (takeInput x l s).transferMode = s.transferMode := rfl
@[simp] theorem takeInput_pio (x : Input) (l : List Input) (s : State) : (takeInput x l s).pio = s.pio := rfl
@[simp] theorem takeInput_dma (x : Input) (l : List Input) (s : State) : (takeInput x l s).dma = s.dma := rfl
@[simp] theorem takeInput_cdda (x : Input) (l : List Input) (s : State) : (takeInput x l s).cdda = s.cdda := rfl
@[simp] theorem takeInput_sense (x : Input) (l : List Input) (s : State) : (takeInput x l s).sense = s.sense := rfl
@[simp] theorem takeInput_hwInfo (x : Input) (l : List Input) (s : State) : (takeInput x l s).hwInfo = s.hwInfo := rfl
@[simp] theorem takeInput_setMode (x : Input) (l : List Input) (s : State) : (takeInput x l s).setMode = s.setMode := rfl
@[simp] theorem takeInput_tocCache (x : Input) (l : List Input) (s : State) : (takeInput x l s).tocCache = s.tocCache := rfl
@[simp] theorem takeInput_trayOpen (x : Input) (l : List Input) (s : State) : (takeInput x l s).trayOpen = s.trayOpen := rfl
@[simp] theorem takeInput_misuse (x : Input) (l : List Input) (s : State) : (takeInput x l s).misuse = s.misuse := rfl
@[simp] theorem takeInput_refused (x : Input) (l : List Input) (s : State) : (takeInput x l s).refused = s.refused := rfl
@[simp] theorem takeInput_cfg (x : Input) (l : List Input) (s : State) : (takeInput x l s).cfg = s.cfg := rfl
@[simp] theorem takeInput_answers (x : Input) (l : List Input) (s : State) : (takeInput x l s).answers = x.answers := rfl
@[simp] theorem takeInput_obs (x : Input) (l : List Input) (s : State) : (takeInput x l s).obs = Observation.empty := rfl
@[simp] theorem takeInput_freeCount (x : Input) (l : List Input) (s : State) : (takeInput x l s).freeCount = s.freeCount := rfl
@[simp] theorem takeInput_inbox (x : Input) (l : List Input) (s : State) : (takeInput x l s).inbox = l := rfl

/-! ## The start of a dispatch. -/

@[simp] theorem startPacket_state (s : State) : (startPacket s).state = .procpacket := rfl
@[simp] theorem startPacket_status (s : State) : (startPacket s).status = putBit (putBit s.status drqBit false) bsyBit true := rfl
@[simp] theorem startPacket_error (s : State) : (startPacket s).error = s.error := rfl
@[simp] theorem startPacket_features (s : State) : (startPacket s).features = s.features := rfl
@[simp] theorem startPacket_intReason (s : State) : (startPacket s).intReason = s.intReason := rfl
@[simp] theorem startPacket_sectCount (s : State) : (startPacket s).sectCount = s.sectCount := rfl
@[simp] theorem startPacket_sectNum (s : State) : (startPacket s).sectNum = s.sectNum := rfl
@[simp] theorem startPacket_byteCount (s : State) : (startPacket s).byteCount = s.byteCount := rfl
@[simp] theorem startPacket_driveSel (s : State) : (startPacket s).driveSel = s.driveSel := rfl
@[simp] theorem startPacket_intrq (s : State) : (startPacket s).intrq = s.intrq := rfl
@[simp] theorem startPacket_packet (s : State) : (startPacket s).packet = s.packet := rfl
@[simp] theorem startPacket_readParams (s : State) : (startPacket s).readParams = s.readParams := rfl
@[simp] theorem startPacket_pioLimit (s : State) : (startPacket s).pioLimit = s.pioLimit := rfl
@[simp] theorem startPacket_dmaEnable (s : State) : (startPacket s).dmaEnable = s.dmaEnable := rfl
@[simp] theorem startPacket_transferMode (s : State) : (startPacket s).transferMode = s.transferMode := rfl
@[simp] theorem startPacket_pio (s : State) : (startPacket s).pio = s.pio := rfl
@[simp] theorem startPacket_dma (s : State) : (startPacket s).dma = s.dma := rfl
@[simp] theorem startPacket_cdda (s : State) : (startPacket s).cdda = s.cdda := rfl
@[simp] theorem startPacket_sense (s : State) : (startPacket s).sense = s.sense := rfl
@[simp] theorem startPacket_hwInfo (s : State) : (startPacket s).hwInfo = s.hwInfo := rfl
@[simp] theorem startPacket_setMode (s : State) : (startPacket s).setMode = s.setMode := rfl
@[simp] theorem startPacket_tocCache (s : State) : (startPacket s).tocCache = s.tocCache := rfl
@[simp] theorem startPacket_trayOpen (s : State) : (startPacket s).trayOpen = s.trayOpen := rfl
@[simp] theorem startPacket_misuse (s : State) : (startPacket s).misuse = s.misuse := rfl
@[simp] theorem startPacket_refused (s : State) : (startPacket s).refused = s.refused := rfl
@[simp] theorem startPacket_cfg (s : State) : (startPacket s).cfg = s.cfg := rfl
@[simp] theorem startPacket_answers (s : State) : (startPacket s).answers = s.answers := rfl
@[simp] theorem startPacket_obs (s : State) : (startPacket s).obs = s.obs := rfl
@[simp] theorem startPacket_freeCount (s : State) : (startPacket s).freeCount = s.freeCount := rfl
@[simp] theorem startPacket_inbox (s : State) : (startPacket s).inbox = s.inbox := rfl

/-! ## `enter(gds_waitcmd)`. -/

@[simp] theorem enterWaitcmd_state (s : State) : (enterWaitcmd s).state = .waitcmd := rfl
@[simp] theorem enterWaitcmd_status (s : State) : (enterWaitcmd s).status = putBit (putBit s.status drdyBit true) bsyBit false := rfl
@[simp] theorem enterWaitcmd_error (s : State) : (enterWaitcmd s).error = s.error := rfl
@[simp] theorem enterWaitcmd_features (s : State) : (enterWaitcmd s).features = s.features := rfl
@[simp] theorem enterWaitcmd_intReason (s : State) : (enterWaitcmd s).intReason = s.intReason := rfl
@[simp] theorem enterWaitcmd_sectCount (s : State) : (enterWaitcmd s).sectCount = s.sectCount := rfl
@[simp] theorem enterWaitcmd_sectNum (s : State) : (enterWaitcmd s).sectNum = s.sectNum := rfl
@[simp] theorem enterWaitcmd_byteCount (s : State) : (enterWaitcmd s).byteCount = s.byteCount := rfl
@[simp] theorem enterWaitcmd_driveSel (s : State) : (enterWaitcmd s).driveSel = s.driveSel := rfl
@[simp] theorem enterWaitcmd_intrq (s : State) : (enterWaitcmd s).intrq = s.intrq := rfl
@[simp] theorem enterWaitcmd_packet (s : State) : (enterWaitcmd s).packet = s.packet := rfl
@[simp] theorem enterWaitcmd_readParams (s : State) : (enterWaitcmd s).readParams = s.readParams := rfl
@[simp] theorem enterWaitcmd_pioLimit (s : State) : (enterWaitcmd s).pioLimit = s.pioLimit := rfl
@[simp] theorem enterWaitcmd_dmaEnable (s : State) : (enterWaitcmd s).dmaEnable = s.dmaEnable := rfl
@[simp] theorem enterWaitcmd_transferMode (s : State) : (enterWaitcmd s).transferMode = s.transferMode := rfl
@[simp] theorem enterWaitcmd_pio (s : State) : (enterWaitcmd s).pio = s.pio := rfl
@[simp] theorem enterWaitcmd_dma (s : State) : (enterWaitcmd s).dma = s.dma := rfl
@[simp] theorem enterWaitcmd_cdda (s : State) : (enterWaitcmd s).cdda = s.cdda := rfl
@[simp] theorem enterWaitcmd_sense (s : State) : (enterWaitcmd s).sense = s.sense := rfl
@[simp] theorem enterWaitcmd_hwInfo (s : State) : (enterWaitcmd s).hwInfo = s.hwInfo := rfl
@[simp] theorem enterWaitcmd_setMode (s : State) : (enterWaitcmd s).setMode = s.setMode := rfl
@[simp] theorem enterWaitcmd_tocCache (s : State) : (enterWaitcmd s).tocCache = s.tocCache := rfl
@[simp] theorem enterWaitcmd_trayOpen (s : State) : (enterWaitcmd s).trayOpen = s.trayOpen := rfl
@[simp] theorem enterWaitcmd_misuse (s : State) : (enterWaitcmd s).misuse = s.misuse := rfl
@[simp] theorem enterWaitcmd_refused (s : State) : (enterWaitcmd s).refused = s.refused := rfl
@[simp] theorem enterWaitcmd_cfg (s : State) : (enterWaitcmd s).cfg = s.cfg := rfl
@[simp] theorem enterWaitcmd_answers (s : State) : (enterWaitcmd s).answers = s.answers := rfl
@[simp] theorem enterWaitcmd_obs (s : State) : (enterWaitcmd s).obs = s.obs := rfl
@[simp] theorem enterWaitcmd_freeCount (s : State) : (enterWaitcmd s).freeCount = s.freeCount := rfl
@[simp] theorem enterWaitcmd_inbox (s : State) : (enterWaitcmd s).inbox = s.inbox := rfl

/-! ## `enter(gds_waitpacket)`. -/

@[simp] theorem enterWaitpacket_state (s : State) : (enterWaitpacket s).state = .waitpacket := rfl
@[simp] theorem enterWaitpacket_status (s : State) : (enterWaitpacket s).status = putBit (putBit s.status drqBit true) bsyBit false := rfl
@[simp] theorem enterWaitpacket_error (s : State) : (enterWaitpacket s).error = s.error := rfl
@[simp] theorem enterWaitpacket_features (s : State) : (enterWaitpacket s).features = s.features := rfl
@[simp] theorem enterWaitpacket_intReason (s : State) : (enterWaitpacket s).intReason = putBit (putBit s.intReason codBit true) ioBit false := rfl
@[simp] theorem enterWaitpacket_sectCount (s : State) : (enterWaitpacket s).sectCount = s.sectCount := rfl
@[simp] theorem enterWaitpacket_sectNum (s : State) : (enterWaitpacket s).sectNum = s.sectNum := rfl
@[simp] theorem enterWaitpacket_byteCount (s : State) : (enterWaitpacket s).byteCount = s.byteCount := rfl
@[simp] theorem enterWaitpacket_driveSel (s : State) : (enterWaitpacket s).driveSel = s.driveSel := rfl
@[simp] theorem enterWaitpacket_intrq (s : State) : (enterWaitpacket s).intrq = s.intrq := rfl
@[simp] theorem enterWaitpacket_packet (s : State) : (enterWaitpacket s).packet = Packet.cleared := rfl
@[simp] theorem enterWaitpacket_readParams (s : State) : (enterWaitpacket s).readParams = s.readParams := rfl
@[simp] theorem enterWaitpacket_pioLimit (s : State) : (enterWaitpacket s).pioLimit = s.pioLimit := rfl
@[simp] theorem enterWaitpacket_dmaEnable (s : State) : (enterWaitpacket s).dmaEnable = s.dmaEnable := rfl
@[simp] theorem enterWaitpacket_transferMode (s : State) : (enterWaitpacket s).transferMode = s.transferMode := rfl
@[simp] theorem enterWaitpacket_pio (s : State) : (enterWaitpacket s).pio = s.pio := rfl
@[simp] theorem enterWaitpacket_dma (s : State) : (enterWaitpacket s).dma = s.dma := rfl
@[simp] theorem enterWaitpacket_cdda (s : State) : (enterWaitpacket s).cdda = s.cdda := rfl
@[simp] theorem enterWaitpacket_sense (s : State) : (enterWaitpacket s).sense = s.sense := rfl
@[simp] theorem enterWaitpacket_hwInfo (s : State) : (enterWaitpacket s).hwInfo = s.hwInfo := rfl
@[simp] theorem enterWaitpacket_setMode (s : State) : (enterWaitpacket s).setMode = s.setMode := rfl
@[simp] theorem enterWaitpacket_tocCache (s : State) : (enterWaitpacket s).tocCache = s.tocCache := rfl
@[simp] theorem enterWaitpacket_trayOpen (s : State) : (enterWaitpacket s).trayOpen = s.trayOpen := rfl
@[simp] theorem enterWaitpacket_misuse (s : State) : (enterWaitpacket s).misuse = s.misuse := rfl
@[simp] theorem enterWaitpacket_refused (s : State) : (enterWaitpacket s).refused = s.refused := rfl
@[simp] theorem enterWaitpacket_cfg (s : State) : (enterWaitpacket s).cfg = s.cfg := rfl
@[simp] theorem enterWaitpacket_answers (s : State) : (enterWaitpacket s).answers = s.answers := rfl
@[simp] theorem enterWaitpacket_obs (s : State) : (enterWaitpacket s).obs = s.obs := rfl
@[simp] theorem enterWaitpacket_freeCount (s : State) : (enterWaitpacket s).freeCount = s.freeCount := rfl
@[simp] theorem enterWaitpacket_inbox (s : State) : (enterWaitpacket s).inbox = s.inbox := rfl

/-! ## A PIO data phase opened. -/

@[simp] theorem openDataPhase_state (st : GdState) (o : Bool) (s : State) : (openDataPhase st o s).state = st := rfl
@[simp] theorem openDataPhase_status (st : GdState) (o : Bool) (s : State) : (openDataPhase st o s).status = putBit (putBit s.status drqBit true) bsyBit false := rfl
@[simp] theorem openDataPhase_error (st : GdState) (o : Bool) (s : State) : (openDataPhase st o s).error = s.error := rfl
@[simp] theorem openDataPhase_features (st : GdState) (o : Bool) (s : State) : (openDataPhase st o s).features = s.features := rfl
@[simp] theorem openDataPhase_intReason (st : GdState) (o : Bool) (s : State) : (openDataPhase st o s).intReason = putBit (putBit s.intReason codBit false) ioBit o := rfl
@[simp] theorem openDataPhase_sectCount (st : GdState) (o : Bool) (s : State) : (openDataPhase st o s).sectCount = s.sectCount := rfl
@[simp] theorem openDataPhase_sectNum (st : GdState) (o : Bool) (s : State) : (openDataPhase st o s).sectNum = s.sectNum := rfl
@[simp] theorem openDataPhase_byteCount (st : GdState) (o : Bool) (s : State) : (openDataPhase st o s).byteCount = BitVec.ofNat 16 (2 * s.pio.size) := rfl
@[simp] theorem openDataPhase_driveSel (st : GdState) (o : Bool) (s : State) : (openDataPhase st o s).driveSel = s.driveSel := rfl
@[simp] theorem openDataPhase_intrq (st : GdState) (o : Bool) (s : State) : (openDataPhase st o s).intrq = true := rfl
@[simp] theorem openDataPhase_packet (st : GdState) (o : Bool) (s : State) : (openDataPhase st o s).packet = s.packet := rfl
@[simp] theorem openDataPhase_readParams (st : GdState) (o : Bool) (s : State) : (openDataPhase st o s).readParams = s.readParams := rfl
@[simp] theorem openDataPhase_pioLimit (st : GdState) (o : Bool) (s : State) : (openDataPhase st o s).pioLimit = s.pioLimit := rfl
@[simp] theorem openDataPhase_dmaEnable (st : GdState) (o : Bool) (s : State) : (openDataPhase st o s).dmaEnable = s.dmaEnable := rfl
@[simp] theorem openDataPhase_transferMode (st : GdState) (o : Bool) (s : State) : (openDataPhase st o s).transferMode = s.transferMode := rfl
@[simp] theorem openDataPhase_pio (st : GdState) (o : Bool) (s : State) : (openDataPhase st o s).pio = s.pio := rfl
@[simp] theorem openDataPhase_dma (st : GdState) (o : Bool) (s : State) : (openDataPhase st o s).dma = s.dma := rfl
@[simp] theorem openDataPhase_cdda (st : GdState) (o : Bool) (s : State) : (openDataPhase st o s).cdda = s.cdda := rfl
@[simp] theorem openDataPhase_sense (st : GdState) (o : Bool) (s : State) : (openDataPhase st o s).sense = s.sense := rfl
@[simp] theorem openDataPhase_hwInfo (st : GdState) (o : Bool) (s : State) : (openDataPhase st o s).hwInfo = s.hwInfo := rfl
@[simp] theorem openDataPhase_setMode (st : GdState) (o : Bool) (s : State) : (openDataPhase st o s).setMode = s.setMode := rfl
@[simp] theorem openDataPhase_tocCache (st : GdState) (o : Bool) (s : State) : (openDataPhase st o s).tocCache = s.tocCache := rfl
@[simp] theorem openDataPhase_trayOpen (st : GdState) (o : Bool) (s : State) : (openDataPhase st o s).trayOpen = s.trayOpen := rfl
@[simp] theorem openDataPhase_misuse (st : GdState) (o : Bool) (s : State) : (openDataPhase st o s).misuse = s.misuse := rfl
@[simp] theorem openDataPhase_refused (st : GdState) (o : Bool) (s : State) : (openDataPhase st o s).refused = s.refused := rfl
@[simp] theorem openDataPhase_cfg (st : GdState) (o : Bool) (s : State) : (openDataPhase st o s).cfg = s.cfg := rfl
@[simp] theorem openDataPhase_answers (st : GdState) (o : Bool) (s : State) : (openDataPhase st o s).answers = s.answers := rfl
@[simp] theorem openDataPhase_obs (st : GdState) (o : Bool) (s : State) : (openDataPhase st o s).obs = { s.obs with irqs := s.obs.irqs ++ [.dataRequest] } := rfl
@[simp] theorem openDataPhase_freeCount (st : GdState) (o : Bool) (s : State) : (openDataPhase st o s).freeCount = s.freeCount := rfl
@[simp] theorem openDataPhase_inbox (st : GdState) (o : Bool) (s : State) : (openDataPhase st o s).inbox = s.inbox := rfl

/-! ## `enter(gds_procpacketdone, k)`. -/

@[simp] theorem enterProcpacketdone_state (k : IrqKind) (s : State) : (enterProcpacketdone k s).state = .waitcmd := rfl
@[simp] theorem enterProcpacketdone_status (k : IrqKind) (s : State) : (enterProcpacketdone k s).status = putBit (putBit (putBit (putBit (putBit s.status drdyBit true) drqBit false) bsyBit false) drdyBit true) bsyBit false := rfl
@[simp] theorem enterProcpacketdone_error (k : IrqKind) (s : State) : (enterProcpacketdone k s).error = s.error := rfl
@[simp] theorem enterProcpacketdone_features (k : IrqKind) (s : State) : (enterProcpacketdone k s).features = s.features := rfl
@[simp] theorem enterProcpacketdone_intReason (k : IrqKind) (s : State) : (enterProcpacketdone k s).intReason = putBit (putBit s.intReason codBit true) ioBit true := rfl
@[simp] theorem enterProcpacketdone_sectCount (k : IrqKind) (s : State) : (enterProcpacketdone k s).sectCount = s.sectCount := rfl
@[simp] theorem enterProcpacketdone_sectNum (k : IrqKind) (s : State) : (enterProcpacketdone k s).sectNum = s.sectNum := rfl
@[simp] theorem enterProcpacketdone_byteCount (k : IrqKind) (s : State) : (enterProcpacketdone k s).byteCount = s.byteCount := rfl
@[simp] theorem enterProcpacketdone_driveSel (k : IrqKind) (s : State) : (enterProcpacketdone k s).driveSel = s.driveSel := rfl
@[simp] theorem enterProcpacketdone_intrq (k : IrqKind) (s : State) : (enterProcpacketdone k s).intrq = true := rfl
@[simp] theorem enterProcpacketdone_packet (k : IrqKind) (s : State) : (enterProcpacketdone k s).packet = s.packet := rfl
@[simp] theorem enterProcpacketdone_readParams (k : IrqKind) (s : State) : (enterProcpacketdone k s).readParams = ReadParams.cleared := rfl
@[simp] theorem enterProcpacketdone_pioLimit (k : IrqKind) (s : State) : (enterProcpacketdone k s).pioLimit = 0 := rfl
@[simp] theorem enterProcpacketdone_dmaEnable (k : IrqKind) (s : State) : (enterProcpacketdone k s).dmaEnable = s.dmaEnable := rfl
@[simp] theorem enterProcpacketdone_transferMode (k : IrqKind) (s : State) : (enterProcpacketdone k s).transferMode = s.transferMode := rfl
@[simp] theorem enterProcpacketdone_pio (k : IrqKind) (s : State) : (enterProcpacketdone k s).pio = s.pio := rfl
@[simp] theorem enterProcpacketdone_dma (k : IrqKind) (s : State) : (enterProcpacketdone k s).dma = s.dma := rfl
@[simp] theorem enterProcpacketdone_cdda (k : IrqKind) (s : State) : (enterProcpacketdone k s).cdda = s.cdda := rfl
@[simp] theorem enterProcpacketdone_sense (k : IrqKind) (s : State) : (enterProcpacketdone k s).sense = s.sense := rfl
@[simp] theorem enterProcpacketdone_hwInfo (k : IrqKind) (s : State) : (enterProcpacketdone k s).hwInfo = s.hwInfo := rfl
@[simp] theorem enterProcpacketdone_setMode (k : IrqKind) (s : State) : (enterProcpacketdone k s).setMode = s.setMode := rfl
@[simp] theorem enterProcpacketdone_tocCache (k : IrqKind) (s : State) : (enterProcpacketdone k s).tocCache = s.tocCache := rfl
@[simp] theorem enterProcpacketdone_trayOpen (k : IrqKind) (s : State) : (enterProcpacketdone k s).trayOpen = s.trayOpen := rfl
@[simp] theorem enterProcpacketdone_misuse (k : IrqKind) (s : State) : (enterProcpacketdone k s).misuse = s.misuse := rfl
@[simp] theorem enterProcpacketdone_refused (k : IrqKind) (s : State) : (enterProcpacketdone k s).refused = s.refused := rfl
@[simp] theorem enterProcpacketdone_cfg (k : IrqKind) (s : State) : (enterProcpacketdone k s).cfg = s.cfg := rfl
@[simp] theorem enterProcpacketdone_answers (k : IrqKind) (s : State) : (enterProcpacketdone k s).answers = s.answers := rfl
@[simp] theorem enterProcpacketdone_obs (k : IrqKind) (s : State) : (enterProcpacketdone k s).obs = { s.obs with irqs := s.obs.irqs ++ [k] } := rfl
@[simp] theorem enterProcpacketdone_freeCount (k : IrqKind) (s : State) : (enterProcpacketdone k s).freeCount = s.freeCount := rfl
@[simp] theorem enterProcpacketdone_inbox (k : IrqKind) (s : State) : (enterProcpacketdone k s).inbox = s.inbox := rfl

/-! ## `ata_complete(k)`. -/

@[simp] theorem ataComplete_state (k : IrqKind) (s : State) : (ataComplete k s).state = .waitcmd := rfl
@[simp] theorem ataComplete_status (k : IrqKind) (s : State) : (ataComplete k s).status = putBit (putBit (putBit s.status drqBit false) drdyBit true) bsyBit false := rfl
@[simp] theorem ataComplete_error (k : IrqKind) (s : State) : (ataComplete k s).error = s.error := rfl
@[simp] theorem ataComplete_features (k : IrqKind) (s : State) : (ataComplete k s).features = s.features := rfl
@[simp] theorem ataComplete_intReason (k : IrqKind) (s : State) : (ataComplete k s).intReason = s.intReason := rfl
@[simp] theorem ataComplete_sectCount (k : IrqKind) (s : State) : (ataComplete k s).sectCount = s.sectCount := rfl
@[simp] theorem ataComplete_sectNum (k : IrqKind) (s : State) : (ataComplete k s).sectNum = s.sectNum := rfl
@[simp] theorem ataComplete_byteCount (k : IrqKind) (s : State) : (ataComplete k s).byteCount = s.byteCount := rfl
@[simp] theorem ataComplete_driveSel (k : IrqKind) (s : State) : (ataComplete k s).driveSel = s.driveSel := rfl
@[simp] theorem ataComplete_intrq (k : IrqKind) (s : State) : (ataComplete k s).intrq = true := rfl
@[simp] theorem ataComplete_packet (k : IrqKind) (s : State) : (ataComplete k s).packet = s.packet := rfl
@[simp] theorem ataComplete_readParams (k : IrqKind) (s : State) : (ataComplete k s).readParams = s.readParams := rfl
@[simp] theorem ataComplete_pioLimit (k : IrqKind) (s : State) : (ataComplete k s).pioLimit = s.pioLimit := rfl
@[simp] theorem ataComplete_dmaEnable (k : IrqKind) (s : State) : (ataComplete k s).dmaEnable = s.dmaEnable := rfl
@[simp] theorem ataComplete_transferMode (k : IrqKind) (s : State) : (ataComplete k s).transferMode = s.transferMode := rfl
@[simp] theorem ataComplete_pio (k : IrqKind) (s : State) : (ataComplete k s).pio = s.pio := rfl
@[simp] theorem ataComplete_dma (k : IrqKind) (s : State) : (ataComplete k s).dma = s.dma := rfl
@[simp] theorem ataComplete_cdda (k : IrqKind) (s : State) : (ataComplete k s).cdda = s.cdda := rfl
@[simp] theorem ataComplete_sense (k : IrqKind) (s : State) : (ataComplete k s).sense = s.sense := rfl
@[simp] theorem ataComplete_hwInfo (k : IrqKind) (s : State) : (ataComplete k s).hwInfo = s.hwInfo := rfl
@[simp] theorem ataComplete_setMode (k : IrqKind) (s : State) : (ataComplete k s).setMode = s.setMode := rfl
@[simp] theorem ataComplete_tocCache (k : IrqKind) (s : State) : (ataComplete k s).tocCache = s.tocCache := rfl
@[simp] theorem ataComplete_trayOpen (k : IrqKind) (s : State) : (ataComplete k s).trayOpen = s.trayOpen := rfl
@[simp] theorem ataComplete_misuse (k : IrqKind) (s : State) : (ataComplete k s).misuse = s.misuse := rfl
@[simp] theorem ataComplete_refused (k : IrqKind) (s : State) : (ataComplete k s).refused = s.refused := rfl
@[simp] theorem ataComplete_cfg (k : IrqKind) (s : State) : (ataComplete k s).cfg = s.cfg := rfl
@[simp] theorem ataComplete_answers (k : IrqKind) (s : State) : (ataComplete k s).answers = s.answers := rfl
@[simp] theorem ataComplete_obs (k : IrqKind) (s : State) : (ataComplete k s).obs = { s.obs with irqs := s.obs.irqs ++ [k] } := rfl
@[simp] theorem ataComplete_freeCount (k : IrqKind) (s : State) : (ataComplete k s).freeCount = s.freeCount := rfl
@[simp] theorem ataComplete_inbox (k : IrqKind) (s : State) : (ataComplete k s).inbox = s.inbox := rfl

/-! ## The pending error collected. -/

@[simp] theorem collectError_state (s : State) : (collectError s).state = s.state := rfl
@[simp] theorem collectError_status (s : State) : (collectError s).status = putBit s.status checkBit false := rfl
@[simp] theorem collectError_error (s : State) : (collectError s).error = 0x00 := rfl
@[simp] theorem collectError_features (s : State) : (collectError s).features = s.features := rfl
@[simp] theorem collectError_intReason (s : State) : (collectError s).intReason = s.intReason := rfl
@[simp] theorem collectError_sectCount (s : State) : (collectError s).sectCount = s.sectCount := rfl
@[simp] theorem collectError_sectNum (s : State) : (collectError s).sectNum = s.sectNum := rfl
@[simp] theorem collectError_byteCount (s : State) : (collectError s).byteCount = s.byteCount := rfl
@[simp] theorem collectError_driveSel (s : State) : (collectError s).driveSel = s.driveSel := rfl
@[simp] theorem collectError_intrq (s : State) : (collectError s).intrq = s.intrq := rfl
@[simp] theorem collectError_packet (s : State) : (collectError s).packet = s.packet := rfl
@[simp] theorem collectError_readParams (s : State) : (collectError s).readParams = s.readParams := rfl
@[simp] theorem collectError_pioLimit (s : State) : (collectError s).pioLimit = s.pioLimit := rfl
@[simp] theorem collectError_dmaEnable (s : State) : (collectError s).dmaEnable = s.dmaEnable := rfl
@[simp] theorem collectError_transferMode (s : State) : (collectError s).transferMode = s.transferMode := rfl
@[simp] theorem collectError_pio (s : State) : (collectError s).pio = s.pio := rfl
@[simp] theorem collectError_dma (s : State) : (collectError s).dma = s.dma := rfl
@[simp] theorem collectError_cdda (s : State) : (collectError s).cdda = s.cdda := rfl
@[simp] theorem collectError_sense (s : State) : (collectError s).sense = { key := 0, asc := 0, ascq := 0 } := rfl
@[simp] theorem collectError_hwInfo (s : State) : (collectError s).hwInfo = s.hwInfo := rfl
@[simp] theorem collectError_setMode (s : State) : (collectError s).setMode = s.setMode := rfl
@[simp] theorem collectError_tocCache (s : State) : (collectError s).tocCache = s.tocCache := rfl
@[simp] theorem collectError_trayOpen (s : State) : (collectError s).trayOpen = s.trayOpen := rfl
@[simp] theorem collectError_misuse (s : State) : (collectError s).misuse = s.misuse := rfl
@[simp] theorem collectError_refused (s : State) : (collectError s).refused = s.refused := rfl
@[simp] theorem collectError_cfg (s : State) : (collectError s).cfg = s.cfg := rfl
@[simp] theorem collectError_answers (s : State) : (collectError s).answers = s.answers := rfl
@[simp] theorem collectError_obs (s : State) : (collectError s).obs = s.obs := rfl
@[simp] theorem collectError_freeCount (s : State) : (collectError s).freeCount = s.freeCount := rfl
@[simp] theorem collectError_inbox (s : State) : (collectError s).inbox = s.inbox := rfl

end Sys2Proof.Machine
end

