-- ==== Sys2Proof/Laws/Bits.lean ====
section
/-! SUPPORT. Setting one condition bit: what it does to each bit, and the two fields of the sector-number register. -/

namespace Sys2Proof.Machine

open Sys2Proof

/-- The bit set takes the value; every other bit stays. -/
theorem getLsbD_putBit (w : Byte) (i j : Nat) (v : Bool) (hi : i < 8) :
    (putBit w i v).getLsbD j = if j = i then v else w.getLsbD j := by
  have hw : 8 ≤ j → w.getLsbD j = false := fun h => BitVec.getLsbD_of_ge w j h
  unfold putBit
  rcases Nat.lt_or_ge j 8 with h8 | h8
  · interval_cases i <;> interval_cases j <;> cases v <;> simp
  · have hne : j ≠ i := by omega
    rw [if_neg hne, hw h8]
    exact BitVec.getLsbD_of_ge _ j h8

@[simp] theorem getLsbD_putBit_check (w : Byte) (j : Nat) (v : Bool) :
    (putBit w checkBit v).getLsbD j = if j = 0 then v else w.getLsbD j := getLsbD_putBit w 0 j v (by decide)
@[simp] theorem getLsbD_putBit_drq (w : Byte) (j : Nat) (v : Bool) :
    (putBit w drqBit v).getLsbD j = if j = 3 then v else w.getLsbD j := getLsbD_putBit w 3 j v (by decide)
@[simp] theorem getLsbD_putBit_dsc (w : Byte) (j : Nat) (v : Bool) :
    (putBit w dscBit v).getLsbD j = if j = 4 then v else w.getLsbD j := getLsbD_putBit w 4 j v (by decide)
@[simp] theorem getLsbD_putBit_drdy (w : Byte) (j : Nat) (v : Bool) :
    (putBit w drdyBit v).getLsbD j = if j = 6 then v else w.getLsbD j := getLsbD_putBit w 6 j v (by decide)
@[simp] theorem getLsbD_putBit_bsy (w : Byte) (j : Nat) (v : Bool) :
    (putBit w bsyBit v).getLsbD j = if j = 7 then v else w.getLsbD j := getLsbD_putBit w 7 j v (by decide)
@[simp] theorem getLsbD_putBit_cod (w : Byte) (j : Nat) (v : Bool) :
    (putBit w codBit v).getLsbD j = if j = 0 then v else w.getLsbD j := getLsbD_putBit w 0 j v (by decide)
@[simp] theorem getLsbD_putBit_io (w : Byte) (j : Nat) (v : Bool) :
    (putBit w ioBit v).getLsbD j = if j = 1 then v else w.getLsbD j := getLsbD_putBit w 1 j v (by decide)

/-- The unit status reads back and the DiscFormat stays. -/
@[simp] theorem putUnit_unitStatus (s : State) (v : BitVec 4) : (s.putUnit v).unitStatus = v := by
  show (s.sectNum.extractLsb' 4 4 ++ v).extractLsb' 0 4 = v
  ext i hi
  simp only [BitVec.getElem_extractLsb', BitVec.getLsbD_append]
  simp [hi]

@[simp] theorem putUnit_discFormat (s : State) (v : BitVec 4) : (s.putUnit v).discFormat = s.discFormat := by
  show (s.sectNum.extractLsb' 4 4 ++ v).extractLsb' 4 4 = s.sectNum.extractLsb' 4 4
  ext i hi
  simp only [BitVec.getElem_extractLsb', BitVec.getLsbD_append, BitVec.getLsbD_extractLsb']
  simp [hi]

/-- The DiscFormat reads back and the unit status stays. -/
@[simp] theorem putDiscFormat_discFormat (s : State) (v : BitVec 4) : (s.putDiscFormat v).discFormat = v := by
  show (v ++ s.sectNum.extractLsb' 0 4).extractLsb' 4 4 = v
  ext i hi
  simp only [BitVec.getElem_extractLsb', BitVec.getLsbD_append]
  simp [hi]

@[simp] theorem putDiscFormat_unitStatus (s : State) (v : BitVec 4) : (s.putDiscFormat v).unitStatus = s.unitStatus := by
  show (v ++ s.sectNum.extractLsb' 0 4).extractLsb' 0 4 = s.sectNum.extractLsb' 0 4
  ext i hi
  simp only [BitVec.getElem_extractLsb', BitVec.getLsbD_append, BitVec.getLsbD_extractLsb']
  simp [hi]

/-- Rewriting both fields of the sector number as they stand changes nothing. -/
theorem unitStatus_discFormat_whole (s : State) : s.discFormat ++ s.unitStatus = s.sectNum := by
  show s.sectNum.extractLsb' 4 4 ++ s.sectNum.extractLsb' 0 4 = s.sectNum
  ext i hi
  simp only [BitVec.getElem_append, BitVec.getElem_extractLsb']
  split
  · simp [BitVec.getLsbD_eq_getElem hi]
  · rename_i h
    have : 4 + (i - 4) = i := by omega
    simp [this, BitVec.getLsbD_eq_getElem hi]

/-- The error register of a failure carries the sense key above its bit (R331). -/
theorem errorValue_key (k : BitVec 4) (b : ErrorBit) : (errorValue k b).extractLsb' 4 4 = k := by
  revert k
  cases b <;> decide

end Sys2Proof.Machine
end

