-- ==== Sys2Proof/Laws/Memory.lean ====
section
/-! SUPPORT. The laws of the buffer storage: reading after writing and loading, and that both keep the canonical form and
the capacity. -/

namespace Sys2Proof.Machine

open Sys2Proof

/-- Nothing is listed below the least address of a canonical memory. -/
theorem Memory.read_below (m : Memory) (a : Nat) (h : ∀ c ∈ m, a < c.1) : Memory.read m a = 0 := by
  induction m with
  | nil => rfl
  | cons c rest ih =>
    obtain ⟨k, x⟩ := c
    have hk : a < k := h (k, x) (by simp)
    unfold Memory.read
    rw [if_neg (by omega)]
    exact ih (fun c hc => h c (by simp [hc]))

/-- Reading where a byte was written gives that byte. -/
theorem Memory.read_write_same (m : Memory) (a : Nat) (v : Byte) (h : Memory.wf m) :
    Memory.read (Memory.write m a v) a = v := by
  induction m with
  | nil => unfold Memory.write; split <;> simp_all [Memory.read]
  | cons c rest ih =>
    obtain ⟨k, x⟩ := c
    obtain ⟨hp, hz⟩ := h
    have hrest : Memory.wf rest := ⟨(List.pairwise_cons.mp hp).2, fun c hc => hz c (by simp [hc])⟩
    have hlow : ∀ c ∈ rest, k < c.1 := (List.pairwise_cons.mp hp).1
    unfold Memory.write
    split
    · rename_i hlt
      split
      · rename_i hv
        rw [hv]
        exact Memory.read_below _ _ (by
          intro c hc
          rcases List.mem_cons.mp hc with rfl | hc
          · exact hlt
          · have := hlow c hc; omega)
      · simp [Memory.read]
    · split
      · rename_i hak
        split
        · rename_i hv
          rw [hv, hak]
          exact Memory.read_below _ _ hlow
        · simp [Memory.read]
      · rename_i hge hne
        unfold Memory.read
        rw [if_neg (fun e => hne e.symm)]
        exact ih hrest

/-- Writing a byte leaves every other address alone. -/
theorem Memory.read_write_other (m : Memory) (a b : Nat) (v : Byte) (hab : b ≠ a) (h : Memory.wf m) :
    Memory.read (Memory.write m a v) b = Memory.read m b := by
  induction m with
  | nil => unfold Memory.write; split <;> simp [Memory.read, Ne.symm hab]
  | cons c rest ih =>
    obtain ⟨k, x⟩ := c
    obtain ⟨hp, hz⟩ := h
    have hrest : Memory.wf rest := ⟨(List.pairwise_cons.mp hp).2, fun c hc => hz c (by simp [hc])⟩
    unfold Memory.write
    split
    · split
      · rfl
      · rw [Memory.read, if_neg (Ne.symm hab)]
    · split
      · rename_i hak
        split
        · rw [Memory.read, if_neg (by omega)]
        · rw [Memory.read, if_neg (Ne.symm hab), Memory.read, if_neg (by omega)]
      · rw [Memory.read, Memory.read, ih hrest]

/-- What a write lists comes from the memory or is the byte written. -/
theorem Memory.mem_write (m : Memory) (a : Nat) (v : Byte) (c : Host.Cell) (h : c ∈ Memory.write m a v) :
    c ∈ m ∨ (c = (a, v) ∧ v ≠ 0) := by
  induction m with
  | nil =>
    unfold Memory.write at h
    split at h
    · exact absurd h (by simp)
    · rename_i hv; exact .inr ⟨by simpa using h, hv⟩
  | cons d rest ih =>
    obtain ⟨k, x⟩ := d
    unfold Memory.write at h
    split at h
    · split at h
      · exact .inl h
      · rename_i hv
        rcases List.mem_cons.mp h with rfl | h
        · exact .inr ⟨rfl, hv⟩
        · exact .inl h
    · split at h
      · split at h
        · exact .inl (List.mem_cons_of_mem _ h)
        · rename_i hv
          rcases List.mem_cons.mp h with rfl | h
          · exact .inr ⟨rfl, hv⟩
          · exact .inl (List.mem_cons_of_mem _ h)
      · rcases List.mem_cons.mp h with rfl | h
        · exact .inl (by simp)
        · rcases ih h with h | h
          · exact .inl (List.mem_cons_of_mem _ h)
          · exact .inr h

/-- A write keeps the canonical form. -/
theorem Memory.write_wf (m : Memory) (a : Nat) (v : Byte) (h : Memory.wf m) : Memory.wf (Memory.write m a v) := by
  refine ⟨?_, ?_⟩
  · induction m with
    | nil => unfold Memory.write; split <;> simp
    | cons c rest ih =>
      obtain ⟨k, x⟩ := c
      obtain ⟨hp, hz⟩ := h
      have hrest : Memory.wf rest := ⟨(List.pairwise_cons.mp hp).2, fun c hc => hz c (by simp [hc])⟩
      have hlow : ∀ c ∈ rest, k < c.1 := (List.pairwise_cons.mp hp).1
      unfold Memory.write
      split
      · rename_i hlt
        split
        · exact hp
        · refine List.pairwise_cons.mpr ⟨?_, hp⟩
          intro c hc
          rcases List.mem_cons.mp hc with rfl | hc
          · exact hlt
          · have := hlow c hc; show a < c.1; omega
      · split
        · rename_i hak
          split
          · exact hrest.1
          · refine List.pairwise_cons.mpr ⟨?_, hrest.1⟩
            intro c hc
            have := hlow c hc; show a < c.1; omega
        · rename_i hge hne
          refine List.pairwise_cons.mpr ⟨?_, ih hrest⟩
          intro c hc
          rcases Memory.mem_write rest a v c hc with hc | ⟨rfl, _⟩
          · exact hlow c hc
          · show k < a; omega
  · intro c hc
    rcases Memory.mem_write m a v c hc with hc | ⟨rfl, hv⟩
    · exact h.2 c hc
    · exact hv

/-- A write below a capacity keeps the memory below it. -/
theorem Memory.write_below (m : Memory) (a cap : Nat) (v : Byte) (ha : a < cap) (h : Memory.below m cap) :
    Memory.below (Memory.write m a v) cap := by
  intro c hc
  rcases Memory.mem_write m a v c hc with hc | ⟨rfl, _⟩
  · exact h c hc
  · exact ha

/-- The cells of a byte sequence lie in its range and hold no 0. -/
theorem Memory.mem_cells (a : Nat) (bytes : List Byte) (c : Host.Cell) (h : c ∈ Memory.cells a bytes) :
    a ≤ c.1 ∧ c.1 < a + bytes.length ∧ c.2 ≠ 0 := by
  induction bytes generalizing a with
  | nil => exact absurd h (by simp [Memory.cells])
  | cons b rest ih =>
    unfold Memory.cells at h
    simp only [List.length_cons]
    split at h
    · have := ih (a + 1) h
      exact ⟨by omega, by omega, this.2.2⟩
    · rename_i hb
      rcases List.mem_cons.mp h with rfl | h
      · exact ⟨Nat.le_refl _, by show a < _; omega, hb⟩
      · have := ih (a + 1) h
        exact ⟨by omega, by omega, this.2.2⟩

/-- The cells of a byte sequence have rising addresses. -/
theorem Memory.cells_rise (a : Nat) (bytes : List Byte) : (Memory.cells a bytes).Pairwise (fun c d => c.1 < d.1) := by
  induction bytes generalizing a with
  | nil => simp [Memory.cells]
  | cons b rest ih =>
    unfold Memory.cells
    split
    · exact ih (a + 1)
    · refine List.pairwise_cons.mpr ⟨?_, ih (a + 1)⟩
      intro c hc
      have := Memory.mem_cells (a + 1) rest c hc
      show a < c.1
      omega

/-- A load keeps the canonical form. -/
theorem Memory.load_wf (m : Memory) (bytes : List Byte) (h : Memory.wf m) : Memory.wf (Memory.load m bytes) := by
  refine ⟨?_, ?_⟩
  · unfold Memory.load
    refine List.pairwise_append.mpr ⟨Memory.cells_rise 0 bytes, h.1.filter _, ?_⟩
    intro c hc d hd
    have hc := Memory.mem_cells 0 bytes c hc
    have hd := (List.mem_filter.mp hd).2
    simp only [decide_eq_true_eq] at hd
    omega
  · intro c hc
    rcases List.mem_append.mp hc with hc | hc
    · exact (Memory.mem_cells 0 bytes c hc).2.2
    · exact h.2 c (List.mem_filter.mp hc).1

/-- A load of at most a capacity keeps the memory below it. -/
theorem Memory.load_below (m : Memory) (bytes : List Byte) (cap : Nat) (hb : bytes.length ≤ cap)
    (h : Memory.below m cap) : Memory.below (Memory.load m bytes) cap := by
  intro c hc
  rcases List.mem_append.mp hc with hc | hc
  · have := Memory.mem_cells 0 bytes c hc; omega
  · exact h c (List.mem_filter.mp hc).1

/-- Reading through a concatenation whose first part lists nothing at the address. -/
theorem Memory.read_append_right (l m : Memory) (a : Nat) (h : ∀ c ∈ l, c.1 ≠ a) :
    Memory.read (l ++ m) a = Memory.read m a := by
  induction l with
  | nil => rfl
  | cons c rest ih =>
    obtain ⟨k, x⟩ := c
    show Memory.read ((k, x) :: (rest ++ m)) a = _
    rw [Memory.read, if_neg (h (k, x) (by simp))]
    exact ih (fun c hc => h c (by simp [hc]))

/-- A memory that lists nothing at an address reads 0 there. -/
theorem Memory.read_unlisted (m : Memory) (a : Nat) (h : ∀ c ∈ m, c.1 ≠ a) : Memory.read m a = 0 := by
  have := Memory.read_append_right m [] a h
  simpa [Memory.read] using this

/-- Reading the cells of a byte sequence gives the sequence. -/
theorem Memory.read_cells (a i : Nat) (bytes : List Byte) (m : Memory) (hi : i < bytes.length)
    (hm : ∀ c ∈ m, a + bytes.length ≤ c.1) : Memory.read (Memory.cells a bytes ++ m) (a + i) = bytes.getD i 0 := by
  induction bytes generalizing a i with
  | nil => exact absurd hi (by simp)
  | cons b rest ih =>
    simp only [List.length_cons] at hi hm
    have hm' : ∀ c ∈ m, (a + 1) + rest.length ≤ c.1 := fun c hc => by have := hm c hc; omega
    have skip : ∀ c ∈ Memory.cells (a + 1) rest ++ m, c.1 ≠ a := by
      intro c hc
      rcases List.mem_append.mp hc with hc | hc
      · have := Memory.mem_cells (a + 1) rest c hc; omega
      · have := hm c hc; omega
    cases i with
    | zero =>
      unfold Memory.cells
      split
      · rename_i hb
        have := Memory.read_unlisted _ _ skip
        simpa [hb] using this
      · show Memory.read ((a, b) :: (Memory.cells (a + 1) rest ++ m)) (a + 0) = _
        simp [Memory.read]
    | succ j =>
      have hj : j < rest.length := by omega
      have step := ih (a + 1) j hj hm'
      have e : a + (j + 1) = a + 1 + j := by omega
      unfold Memory.cells
      split
      · rw [e, step]; rfl
      · show Memory.read ((a, b) :: (Memory.cells (a + 1) rest ++ m)) (a + (j + 1)) = _
        rw [Memory.read, if_neg (by omega), e, step]; rfl

/-- A loaded byte reads back. -/
theorem Memory.read_load_inside (m : Memory) (bytes : List Byte) (a : Nat) (h : a < bytes.length) :
    Memory.read (Memory.load m bytes) a = bytes.getD a 0 := by
  have := Memory.read_cells 0 a bytes (m.filter (fun c => decide (bytes.length ≤ c.1))) h (by
    intro c hc
    have := (List.mem_filter.mp hc).2
    simp only [decide_eq_true_eq] at this
    omega)
  simpa [Memory.load] using this

/-- Above what was loaded every byte stays. -/
theorem Memory.read_load_outside (m : Memory) (bytes : List Byte) (a : Nat) (h : bytes.length ≤ a) :
    Memory.read (Memory.load m bytes) a = Memory.read m a := by
  unfold Memory.load
  rw [Memory.read_append_right]
  · induction m with
    | nil => rfl
    | cons c rest ih =>
      obtain ⟨k, x⟩ := c
      by_cases hk : bytes.length ≤ k
      · rw [List.filter_cons_of_pos (by simpa using hk), Memory.read, Memory.read, ih]
      · rw [List.filter_cons_of_neg (by simpa using hk), Memory.read, if_neg (by omega), ih]
  · intro c hc
    have := Memory.mem_cells 0 bytes c hc
    omega

/-- A slice has its length. -/
@[simp] theorem Memory.slice_length (m : Memory) (a n : Nat) : (Memory.slice m a n).length = n := by
  simp [Memory.slice]

/-- Byte `i` of a slice. -/
theorem Memory.slice_getD (m : Memory) (a n i : Nat) (h : i < n) : (Memory.slice m a n).getD i 0 = Memory.read m (a + i) := by
  simp [Memory.slice, List.getD, h]

/-- Reading a canonical memory with nothing listed. -/
@[simp] theorem Memory.read_nil (a : Nat) : Memory.read [] a = 0 := rfl

/-- The storage of both buffers after reset is canonical and inside its capacity. -/
theorem reset_memory_wf : Memory.wf State.reset.pio.data ∧ Memory.wf State.reset.dma.data ∧
    Memory.below State.reset.pio.data 65536 ∧ Memory.below State.reset.dma.data 37632 := by
  refine ⟨⟨List.Pairwise.nil, ?_⟩, ⟨List.Pairwise.nil, ?_⟩, ?_, ?_⟩ <;> intro c hc <;> exact absurd hc (List.not_mem_nil)

end Sys2Proof.Machine
end

