-- ==== Sys2Proof/Laws/Ops.lean ====
section
/-! SUPPORT. For each shared operation one lemma that says everything it can do. -/

namespace Sys2Proof.Machine

open Sys2Proof

/-! ## Misuse and refusal -/

/-- With nothing recorded an operation has its meaning. -/
theorem whileLive_live (s : State) (k : Result) (h : s.live) : whileLive s k = k := by
  simp [whileLive, h.1, h.2]

/-- Everything `whileLive` can answer. -/
theorem whileLive_cases (s : State) (k : Result) :
    (s.live ∧ whileLive s k = k) ∨ (∃ r, s.misuse = some r ∧ whileLive s k = .fault (.afterMisuse r)) ∨
    (s.misuse = none ∧ ∃ r, s.refused = some r ∧ whileLive s k = .fault (.afterRefusal r)) := by
  unfold whileLive
  cases hm : s.misuse with
  | some r => exact .inr (.inl ⟨r, rfl, rfl⟩)
  | none =>
    cases hr : s.refused with
    | some r => exact .inr (.inr ⟨rfl, r, rfl, rfl⟩)
    | none => exact .inl ⟨⟨hm, hr⟩, rfl⟩

/-- Everything `applied` can answer. -/
theorem applied_cases (s : State) (r : Except Halt State) :
    (∃ t, r = .ok t ∧ applied s r = .next t) ∨ (∃ h, r = .error h ∧ applied s r = .next (recordHalt h s)) := by
  cases r with
  | ok t => exact .inl ⟨t, rfl, rfl⟩
  | error h => exact .inr ⟨h, rfl, rfl⟩

/-- What is left of an operation that is not applied (R350, R351): one record, the queries, nothing else. -/
theorem recordHalt_cases (h : Halt) (s : State) :
    (∃ r, h.why = .misuse r ∧ recordHalt h s =
      { s with misuse := (match s.misuse with | none => some r | some q => some q), obs := { s.obs with queries := h.asked } }) ∨
    (∃ r, h.why = .refuse r ∧ recordHalt h s =
      { s with refused := (match s.refused with | none => some r | some q => some q), obs := { s.obs with queries := h.asked } }) := by
  unfold recordHalt
  cases hw : h.why with
  | misuse r => exact .inl ⟨r, rfl, rfl⟩
  | refuse r => exact .inr ⟨r, rfl, rfl⟩

/-! ## The provider -/

/-- Everything `discReady` can do (R102). -/
theorem discReady_cases (s : State) :
    (s.trayOpen = true ∧ discReady s = (false, s)) ∨
    (s.trayOpen = false ∧ discReady s = (s.answers.present,
      { s.asking .isDiscPresent with answers := { s.answers with present := s.answers.presentAgain } })) := by
  unfold discReady askPresent
  cases s.trayOpen with
  | true => exact .inl ⟨rfl, rfl⟩
  | false => exact .inr ⟨rfl, rfl⟩

/-- Everything `get_toc()` can do (R104). -/
theorem cachedToc_cases (s : State) :
    (∃ t, s.tocCache = some t ∧ cachedToc s = (some t, s)) ∨
    (s.tocCache = none ∧ ∃ t, s.answers.toc = some t ∧ tocValid t = true ∧
      cachedToc s = (some t, (s.asking .getTOC).keepToc t)) ∨
    (s.tocCache = none ∧ (∀ t, s.answers.toc = some t → tocValid t = false) ∧ cachedToc s = (none, s.asking .getTOC)) := by
  unfold cachedToc answeredToc
  cases hc : s.tocCache with
  | some t => exact .inl ⟨t, rfl, rfl⟩
  | none =>
    right
    cases ha : s.answers.toc with
    | none => exact .inr ⟨rfl, by simp, rfl⟩
    | some t =>
      cases hv : tocValid t with
      | true => exact .inl ⟨rfl, t, rfl, hv, by simp [hv]⟩
      | false =>
        refine .inr ⟨rfl, ?_, by simp [hv]⟩
        intro u hu
        cases hu
        exact hv

/-- A well-formed TOC has a DiscFormat code (R30, R101). -/
theorem tocValid_discFormat (t : Toc) (h : tocValid t = true) : discFormatOk t.discFormat = true := by
  simp only [tocValid, Bool.and_eq_true] at h
  tauto

/-- Everything the status and position blocks' query can do (R224, R248). -/
theorem tocIfReady_cases (s : State) :
    ((discReady s).1 = true ∧ tocIfReady s = cachedToc (discReady s).2) ∨
    ((discReady s).1 = false ∧ tocIfReady s = (none, (discReady s).2)) := by
  unfold tocIfReady
  cases (discReady s).1 with
  | true => exact .inl ⟨rfl, rfl⟩
  | false => exact .inr ⟨rfl, rfl⟩

/-- Everything `need_ready()` can do (R261). -/
theorem needReady_cases (k : Act) (s : State) :
    ((discReady s).1 = true ∧ needReady k s = k (discReady s).2) ∨
    ((discReady s).1 = false ∧ needReady k s = .ok (failNotReady (discReady s).2)) := by
  unfold needReady
  cases (discReady s).1 with
  | true => exact .inl ⟨rfl, rfl⟩
  | false => exact .inr ⟨rfl, rfl⟩

/-- Everything `need_toc()` can do (R261). -/
theorem needToc_cases (k : Toc → Act) (s : State) :
    (∃ t, (cachedToc s).1 = some t ∧ needToc k s = k t (cachedToc s).2) ∨
    ((cachedToc s).1 = none ∧ needToc k s = .ok (failMedium (cachedToc s).2)) := by
  unfold needToc
  cases (cachedToc s).1 with
  | some t => exact .inl ⟨t, rfl, rfl⟩
  | none => exact .inr ⟨rfl, rfl⟩

/-! ## The PioBuffer -/

/-- A fill inside the capacity (R82). -/
theorem pioFill_fits (n : Nat) (s : State) (h : n ≤ 65536) :
    pioFill n s = .ok { s with pio := { s.pio with cursor := 0, size := (n + 1) / 2 } } := by
  unfold pioFill
  rw [if_neg (by unfold pioCapacityBytes; omega)]

/-- Everything `PioBuffer.fill` can do (R82). -/
theorem pioFill_cases (n : Nat) (s : State) :
    (n ≤ 65536 ∧ pioFill n s = .ok { s with pio := { s.pio with cursor := 0, size := (n + 1) / 2 } }) ∨
    (65536 < n ∧ pioFill n s = misused .pioOverCapacity s) := by
  rcases Nat.lt_or_ge 65536 n with h | h
  · exact .inr ⟨h, by unfold pioFill; rw [if_pos (by unfold pioCapacityBytes; omega)]⟩
  · exact .inl ⟨h, pioFill_fits n s h⟩

/-- Everything `PioBuffer.read` can do (R84). -/
theorem pioRead_cases (s : State) :
    (s.pio.cursor < s.pio.size ∧
      pioRead s = .ok (pioWord s s.pio.cursor, { s with pio := { s.pio with cursor := s.pio.cursor + 1 } })) ∨
    (s.pio.size ≤ s.pio.cursor ∧ pioRead s = misused .pioReadPastEnd s) := by
  unfold pioRead
  split
  · exact .inl ⟨‹_›, rfl⟩
  · exact .inr ⟨by omega, rfl⟩

/-- Everything `PioBuffer.write` can do (R85). -/
theorem pioWrite_cases (v : Half) (s : State) :
    (s.pio.cursor < s.pio.size ∧ pioWrite v s = .ok { s with pio := { s.pio with
      data := Memory.write (Memory.write s.pio.data (2 * s.pio.cursor) (v.extractLsb' 0 8))
        (2 * s.pio.cursor + 1) (v.extractLsb' 8 8)
      cursor := s.pio.cursor + 1 } }) ∨
    (s.pio.size ≤ s.pio.cursor ∧ pioWrite v s = misused .pioWritePastEnd s) := by
  unfold pioWrite
  split
  · exact .inl ⟨‹_›, rfl⟩
  · exact .inr ⟨by omega, rfl⟩

/-- What a response leaves (R181). -/
def responding (bytes : List Byte) (next : GdState) (s : State) : State :=
  enterPioSendData { s with pio :=
    { data := Memory.load s.pio.data (evenBytes bytes), cursor := 0, size := (bytes.length + 1) / 2, nextState := next } }

/-- Everything `pio_respond` can do (R181). -/
theorem pioRespond_cases (bytes : List Byte) (next : GdState) (s : State) :
    (bytes = [] ∧ pioRespond bytes next s = .ok (enterProcpacketdone .complete s)) ∨
    (0 < bytes.length ∧ bytes.length ≤ 65536 ∧ pioRespond bytes next s = .ok (responding bytes next s)) ∨
    (65536 < bytes.length ∧ pioRespond bytes next s = misused .pioOverCapacity s) := by
  unfold pioRespond
  by_cases h0 : bytes.length = 0
  · exact .inl ⟨List.length_eq_zero_iff.mp h0, by rw [if_pos h0]⟩
  · right
    rw [if_neg h0]
    rcases pioFill_cases bytes.length s with ⟨h, e⟩ | ⟨h, e⟩
    · exact .inl ⟨by omega, h, by rw [e]; rfl⟩
    · exact .inr ⟨h, by rw [e]; rfl⟩

/-- A response of at most the capacity is given (R181). -/
theorem pioRespond_fits (bytes : List Byte) (next : GdState) (s : State) (h : bytes.length ≤ 65536) :
    pioRespond bytes next s =
      .ok (if bytes = [] then enterProcpacketdone .complete s else responding bytes next s) := by
  rcases pioRespond_cases bytes next s with ⟨h0, e⟩ | ⟨h0, _, e⟩ | ⟨h1, _⟩
  · rw [e, if_pos h0]
  · rw [e, if_neg (by intro hb; rw [hb] at h0; exact absurd h0 (by decide))]
  · omega

/-- A window is never longer than what was asked for, nor than its block (R222). -/
theorem window_length (block : List Byte) (off len : Nat) :
    (window block off len).length = min len (block.length - off) := by simp [window]

/-- A byte of a window is the block's byte at the offset (R222). -/
theorem window_getD (block : List Byte) (off len i : Nat) (h : i < len) :
    (window block off len).getD i 0 = block.getD (off + i) 0 := by
  simp [window, List.getD, h]

/-- Bytes padded to whole words: an even number of them (R83). -/
theorem evenBytes_length (bytes : List Byte) : (evenBytes bytes).length = 2 * ((bytes.length + 1) / 2) := by
  unfold evenBytes
  split
  · simp only [List.length_append, List.length_cons, List.length_nil]; omega
  · omega

/-! ## The DmaBuffer -/

/-- Everything `DmaBuffer.read` can do (R93). -/
theorem dmaRead_cases (len : Nat) (s : State) :
    (len ≤ dmaUnread s ∧ dmaRead len s =
      .ok (Memory.slice s.dma.data s.dma.cursor len, { s with dma := { s.dma with cursor := s.dma.cursor + len } })) ∨
    (dmaUnread s < len ∧ dmaRead len s = misused .dmaReadPastEnd s) := by
  unfold dmaRead
  split
  · exact .inl ⟨‹_›, rfl⟩
  · exact .inr ⟨by omega, rfl⟩

/-- What a refill leaves (R91). -/
def refilled (n size : Nat) (bytes : List Byte) (s : State) : State :=
  { s.asking (.readSectors s.readParams.startSector n s.readParams.sectorType) with
    dma := { data := Memory.load s.dma.data bytes, cursor := 0, size := n * size }
    readParams := { s.readParams with startSector := s.readParams.startSector + n, remaining := s.readParams.remaining - n } }

/-- Everything `DmaBuffer.fill` can do (R91, R92). -/
theorem dmaFill_cases (s : State) :
    (s.dma.cursor ≠ s.dma.size ∧ dmaFill s = misused .dmaFillNotEmpty s) ∨
    (s.dma.cursor = s.dma.size ∧ sectorSize s.cfg s.readParams.sectorType = none ∧
      dmaFill s = refusedFor .unspecifiedSectorSelection s) ∨
    (s.dma.cursor = s.dma.size ∧ ∃ size bytes, sectorSize s.cfg s.readParams.sectorType = some size ∧
      s.answers.sectors = some bytes ∧ bytes.length = min 16 s.readParams.remaining * size ∧
      dmaFill s = .ok (true, refilled (min 16 s.readParams.remaining) size bytes s)) ∨
    (s.dma.cursor = s.dma.size ∧ ∃ size, sectorSize s.cfg s.readParams.sectorType = some size ∧
      (∀ bytes, s.answers.sectors = some bytes → bytes.length ≠ min 16 s.readParams.remaining * size) ∧
      dmaFill s = .ok (false, s.asking
        (.readSectors s.readParams.startSector (min 16 s.readParams.remaining) s.readParams.sectorType))) := by
  unfold dmaFill dmaIsEmpty
  by_cases he : s.dma.cursor = s.dma.size
  · right
    rw [if_pos (by simp [he])]
    cases hs : sectorSize s.cfg s.readParams.sectorType with
    | none => exact .inl ⟨he, rfl, by simp [hs]⟩
    | some size =>
      right
      cases ha : s.answers.sectors with
      | none => exact .inr ⟨he, size, rfl, by simp, by simp [hs, answeredSectors, ha, dmaMaxSectors]⟩
      | some bytes =>
        by_cases hl : bytes.length = min 16 s.readParams.remaining * size
        · exact .inl ⟨he, size, bytes, rfl, rfl, hl, by simp [hs, answeredSectors, ha, hl, dmaMaxSectors, refilled]⟩
        · refine .inr ⟨he, size, rfl, ?_, by simp [hs, answeredSectors, ha, hl, dmaMaxSectors]⟩
          intro b hb
          cases hb
          exact hl
  · exact .inl ⟨he, by rw [if_neg (by simp [he])]⟩

/-! ## Sector sizes -/

/-- Every configured size is even and in 2..2352 (R283). -/
theorem furtherSectorSize_ok (st : BitVec 7) (l : List (BitVec 7 × Nat)) (size : Nat)
    (h : furtherSectorSize st l = some size) : 2 ≤ size ∧ size ≤ 2352 ∧ size % 2 = 0 := by
  induction l with
  | nil => exact absurd h (by simp [furtherSectorSize])
  | cons e rest ih =>
    obtain ⟨k, n⟩ := e
    unfold furtherSectorSize at h
    split at h
    · rename_i hk
      cases h
      have hok := hk.2
      simp only [sectorSizeOk, maxSectorSize, Bool.and_eq_true, decide_eq_true_eq, beq_iff_eq] at hok
      exact ⟨hok.1.1, of_decide_eq_true hok.1.2, hok.2⟩
    · exact ih h

/-- Every sector size is even and in 2..2352 (R283). -/
theorem sectorSize_ok (c : Config) (st : BitVec 7) (size : Nat) (h : sectorSize c st = some size) :
    2 ≤ size ∧ size ≤ 2352 ∧ size % 2 = 0 := by
  unfold sectorSize at h
  split at h
  · rename_i n hn
    cases h
    unfold mandatorySectorSize at hn
    split at hn <;> first | (cases hn; decide) | exact absurd hn (by simp)
  · exact furtherSectorSize_ok st _ size h

/-! ## Interrupts, completion and failure -/

/-- Everything the failure procedure does (R345), at packet level. -/
theorem raiseFail_spi (e : Sense) (b : ErrorBit) (s : State) :
    raiseFail e b .spi s = enterProcpacketdone .error
      { s with sense := e, error := errorValue e.key b, status := putBit s.status checkBit true
               pio := { s.pio with cursor := 0, size := 0, nextState := .pioEnd }
               dma := { s.dma with cursor := 0, size := 0 }, readParams := ReadParams.cleared, pioLimit := 0 } := rfl

/-- Everything the failure procedure does (R345), at ATA level. -/
theorem raiseFail_ata (e : Sense) (b : ErrorBit) (s : State) :
    raiseFail e b .ata s = ataComplete .error
      { s with sense := e, error := errorValue e.key b, status := putBit s.status checkBit true
               pio := { s.pio with cursor := 0, size := 0, nextState := .pioEnd }
               dma := { s.dma with cursor := 0, size := 0 }, readParams := ReadParams.cleared, pioLimit := 0 } := rfl

/-- The end of a PIO data phase is a completion (R176): DRQ falls once more and nothing else is new. -/
theorem enterPioEnd_eq (s : State) :
    enterPioEnd s = enterProcpacketdone .complete { s with state := .pioEnd, status := putBit s.status drqBit false } := rfl

/-- Everything `unit_refresh()` does (R373). -/
theorem unitRefresh_cases (s : State) :
    (s.trayOpen = true ∧ unitRefresh s = s.putUnit unitOpen) ∨
    (s.trayOpen = false ∧ unitRefresh s =
      ({ s.asking .isDiscPresent with answers := { s.answers with present := s.answers.presentAgain } }).putUnit
        (if s.answers.present then unitStandby else unitNoDisc)) := by
  unfold unitRefresh askPresent
  cases s.trayOpen with
  | true => exact .inl ⟨rfl, rfl⟩
  | false =>
    refine .inr ⟨rfl, ?_⟩
    cases s.answers.present <;> rfl

end Sys2Proof.Machine
end

