-- ==== Sys2Proof/Laws/PerInstr.lean ====
section
/-! SUPPORT. Per-instruction laws: one lemma for each operation of the table. -/

namespace Sys2Proof.Laws.RecordShape

open Sys2Proof Sys2Proof.Machine

/-- An operation's record has a code byte, a format byte from 1 to 5 and at most eleven operand bytes, and its format is 4
exactly for the packets (log entry 1). -/
def Statement (i : Instr) : Prop :=
  2 ≤ (encode i).length ∧ (encode i).length ≤ 13 ∧
    ∃ f : Byte, (encode i)[1]? = some f ∧ 1 ≤ f.toNat ∧ f.toNat ≤ 5 ∧ (isPacket i = true ↔ f = 4)

theorem rData (n : Nat) : Statement (.rData n) :=
  ⟨Nat.le_of_ble_eq_true rfl, Nat.le_of_ble_eq_true rfl, 1, rfl, by decide, by decide, ⟨fun h => absurd h Bool.false_ne_true, fun h => absurd h (by decide)⟩⟩

theorem rError (n : Nat) : Statement (.rError n) :=
  ⟨Nat.le_of_ble_eq_true rfl, Nat.le_of_ble_eq_true rfl, 1, rfl, by decide, by decide, ⟨fun h => absurd h Bool.false_ne_true, fun h => absurd h (by decide)⟩⟩

theorem rIntreason (n : Nat) : Statement (.rIntreason n) :=
  ⟨Nat.le_of_ble_eq_true rfl, Nat.le_of_ble_eq_true rfl, 1, rfl, by decide, by decide, ⟨fun h => absurd h Bool.false_ne_true, fun h => absurd h (by decide)⟩⟩

theorem rSectnum (n : Nat) : Statement (.rSectnum n) :=
  ⟨Nat.le_of_ble_eq_true rfl, Nat.le_of_ble_eq_true rfl, 1, rfl, by decide, by decide, ⟨fun h => absurd h Bool.false_ne_true, fun h => absurd h (by decide)⟩⟩

theorem rBclow (n : Nat) : Statement (.rBclow n) :=
  ⟨Nat.le_of_ble_eq_true rfl, Nat.le_of_ble_eq_true rfl, 1, rfl, by decide, by decide, ⟨fun h => absurd h Bool.false_ne_true, fun h => absurd h (by decide)⟩⟩

theorem rBchigh (n : Nat) : Statement (.rBchigh n) :=
  ⟨Nat.le_of_ble_eq_true rfl, Nat.le_of_ble_eq_true rfl, 1, rfl, by decide, by decide, ⟨fun h => absurd h Bool.false_ne_true, fun h => absurd h (by decide)⟩⟩

theorem rDrivesel (n : Nat) : Statement (.rDrivesel n) :=
  ⟨Nat.le_of_ble_eq_true rfl, Nat.le_of_ble_eq_true rfl, 1, rfl, by decide, by decide, ⟨fun h => absurd h Bool.false_ne_true, fun h => absurd h (by decide)⟩⟩

theorem rStatus (n : Nat) : Statement (.rStatus n) :=
  ⟨Nat.le_of_ble_eq_true rfl, Nat.le_of_ble_eq_true rfl, 1, rfl, by decide, by decide, ⟨fun h => absurd h Bool.false_ne_true, fun h => absurd h (by decide)⟩⟩

theorem wData (n : Nat) (v : Half) : Statement (.wData n v) :=
  ⟨Nat.le_of_ble_eq_true rfl, Nat.le_of_ble_eq_true rfl, 2, rfl, by decide, by decide, ⟨fun h => absurd h Bool.false_ne_true, fun h => absurd h (by decide)⟩⟩

theorem wFeatures (n : Nat) (v : Half) : Statement (.wFeatures n v) :=
  ⟨Nat.le_of_ble_eq_true rfl, Nat.le_of_ble_eq_true rfl, 2, rfl, by decide, by decide, ⟨fun h => absurd h Bool.false_ne_true, fun h => absurd h (by decide)⟩⟩

theorem wSectcount (n : Nat) (v : Half) : Statement (.wSectcount n v) :=
  ⟨Nat.le_of_ble_eq_true rfl, Nat.le_of_ble_eq_true rfl, 2, rfl, by decide, by decide, ⟨fun h => absurd h Bool.false_ne_true, fun h => absurd h (by decide)⟩⟩

theorem wSectnum (n : Nat) (v : Half) : Statement (.wSectnum n v) :=
  ⟨Nat.le_of_ble_eq_true rfl, Nat.le_of_ble_eq_true rfl, 2, rfl, by decide, by decide, ⟨fun h => absurd h Bool.false_ne_true, fun h => absurd h (by decide)⟩⟩

theorem wBclow (n : Nat) (v : Half) : Statement (.wBclow n v) :=
  ⟨Nat.le_of_ble_eq_true rfl, Nat.le_of_ble_eq_true rfl, 2, rfl, by decide, by decide, ⟨fun h => absurd h Bool.false_ne_true, fun h => absurd h (by decide)⟩⟩

theorem wBchigh (n : Nat) (v : Half) : Statement (.wBchigh n v) :=
  ⟨Nat.le_of_ble_eq_true rfl, Nat.le_of_ble_eq_true rfl, 2, rfl, by decide, by decide, ⟨fun h => absurd h Bool.false_ne_true, fun h => absurd h (by decide)⟩⟩

theorem wDrivesel (n : Nat) (v : Half) : Statement (.wDrivesel n v) :=
  ⟨Nat.le_of_ble_eq_true rfl, Nat.le_of_ble_eq_true rfl, 2, rfl, by decide, by decide, ⟨fun h => absurd h Bool.false_ne_true, fun h => absurd h (by decide)⟩⟩

theorem wCommand (n : Nat) (v : Half) : Statement (.wCommand n v) :=
  ⟨Nat.le_of_ble_eq_true rfl, Nat.le_of_ble_eq_true rfl, 2, rfl, by decide, by decide, ⟨fun h => absurd h Bool.false_ne_true, fun h => absurd h (by decide)⟩⟩

theorem nop : Statement (.nop) :=
  ⟨by decide, by decide, 3, rfl, by decide, by decide, ⟨fun h => absurd h Bool.false_ne_true, fun h => absurd h (by decide)⟩⟩

theorem softReset : Statement (.softReset) :=
  ⟨by decide, by decide, 3, rfl, by decide, by decide, ⟨fun h => absurd h Bool.false_ne_true, fun h => absurd h (by decide)⟩⟩

theorem execDiag : Statement (.execDiag) :=
  ⟨by decide, by decide, 3, rfl, by decide, by decide, ⟨fun h => absurd h Bool.false_ne_true, fun h => absurd h (by decide)⟩⟩

theorem spiPacket : Statement (.spiPacket) :=
  ⟨by decide, by decide, 3, rfl, by decide, by decide, ⟨fun h => absurd h Bool.false_ne_true, fun h => absurd h (by decide)⟩⟩

theorem identifyDevice : Statement (.identifyDevice) :=
  ⟨by decide, by decide, 3, rfl, by decide, by decide, ⟨fun h => absurd h Bool.false_ne_true, fun h => absurd h (by decide)⟩⟩

theorem identify : Statement (.identify) :=
  ⟨by decide, by decide, 3, rfl, by decide, by decide, ⟨fun h => absurd h Bool.false_ne_true, fun h => absurd h (by decide)⟩⟩

theorem setFeatures : Statement (.setFeatures) :=
  ⟨by decide, by decide, 3, rfl, by decide, by decide, ⟨fun h => absurd h Bool.false_ne_true, fun h => absurd h (by decide)⟩⟩

theorem ataUnknown (code : Byte) : Statement (.ataUnknown code) :=
  ⟨Nat.le_of_ble_eq_true rfl, Nat.le_of_ble_eq_true rfl, 3, rfl, by decide, by decide, ⟨fun h => absurd h Bool.false_ne_true, fun h => absurd h (by decide)⟩⟩

theorem testUnit (p : Params) : Statement (.testUnit p) :=
  ⟨Nat.le_of_ble_eq_true rfl, Nat.le_of_ble_eq_true rfl, 4, rfl, by decide, by decide, ⟨fun _ => rfl, fun _ => rfl⟩⟩

theorem reqStat (p : Params) : Statement (.reqStat p) :=
  ⟨Nat.le_of_ble_eq_true rfl, Nat.le_of_ble_eq_true rfl, 4, rfl, by decide, by decide, ⟨fun _ => rfl, fun _ => rfl⟩⟩

theorem reqMode (p : Params) : Statement (.reqMode p) :=
  ⟨Nat.le_of_ble_eq_true rfl, Nat.le_of_ble_eq_true rfl, 4, rfl, by decide, by decide, ⟨fun _ => rfl, fun _ => rfl⟩⟩

theorem setMode (p : Params) : Statement (.setMode p) :=
  ⟨Nat.le_of_ble_eq_true rfl, Nat.le_of_ble_eq_true rfl, 4, rfl, by decide, by decide, ⟨fun _ => rfl, fun _ => rfl⟩⟩

theorem reqError (p : Params) : Statement (.reqError p) :=
  ⟨Nat.le_of_ble_eq_true rfl, Nat.le_of_ble_eq_true rfl, 4, rfl, by decide, by decide, ⟨fun _ => rfl, fun _ => rfl⟩⟩

theorem getToc (p : Params) : Statement (.getToc p) :=
  ⟨Nat.le_of_ble_eq_true rfl, Nat.le_of_ble_eq_true rfl, 4, rfl, by decide, by decide, ⟨fun _ => rfl, fun _ => rfl⟩⟩

theorem reqSes (p : Params) : Statement (.reqSes p) :=
  ⟨Nat.le_of_ble_eq_true rfl, Nat.le_of_ble_eq_true rfl, 4, rfl, by decide, by decide, ⟨fun _ => rfl, fun _ => rfl⟩⟩

theorem cdOpen (p : Params) : Statement (.cdOpen p) :=
  ⟨Nat.le_of_ble_eq_true rfl, Nat.le_of_ble_eq_true rfl, 4, rfl, by decide, by decide, ⟨fun _ => rfl, fun _ => rfl⟩⟩

theorem cdPlay (p : Params) : Statement (.cdPlay p) :=
  ⟨Nat.le_of_ble_eq_true rfl, Nat.le_of_ble_eq_true rfl, 4, rfl, by decide, by decide, ⟨fun _ => rfl, fun _ => rfl⟩⟩

theorem cdSeek (p : Params) : Statement (.cdSeek p) :=
  ⟨Nat.le_of_ble_eq_true rfl, Nat.le_of_ble_eq_true rfl, 4, rfl, by decide, by decide, ⟨fun _ => rfl, fun _ => rfl⟩⟩

theorem cdScan (p : Params) : Statement (.cdScan p) :=
  ⟨Nat.le_of_ble_eq_true rfl, Nat.le_of_ble_eq_true rfl, 4, rfl, by decide, by decide, ⟨fun _ => rfl, fun _ => rfl⟩⟩

theorem cdRead (p : Params) : Statement (.cdRead p) :=
  ⟨Nat.le_of_ble_eq_true rfl, Nat.le_of_ble_eq_true rfl, 4, rfl, by decide, by decide, ⟨fun _ => rfl, fun _ => rfl⟩⟩

theorem cdRead2 (p : Params) : Statement (.cdRead2 p) :=
  ⟨Nat.le_of_ble_eq_true rfl, Nat.le_of_ble_eq_true rfl, 4, rfl, by decide, by decide, ⟨fun _ => rfl, fun _ => rfl⟩⟩

theorem getScd (p : Params) : Statement (.getScd p) :=
  ⟨Nat.le_of_ble_eq_true rfl, Nat.le_of_ble_eq_true rfl, 4, rfl, by decide, by decide, ⟨fun _ => rfl, fun _ => rfl⟩⟩

theorem spiUnrecognized (opcode : Byte) (p : Params) : Statement (.spiUnrecognized opcode p) :=
  ⟨Nat.le_of_ble_eq_true rfl, Nat.le_of_ble_eq_true rfl, 4, rfl, by decide, by decide, ⟨fun _ => rfl, fun _ => rfl⟩⟩

theorem dmaAvail : Statement (.dmaAvail) :=
  ⟨by decide, by decide, 5, rfl, by decide, by decide, ⟨fun h => absurd h Bool.false_ne_true, fun h => absurd h (by decide)⟩⟩

theorem dmaPull (len : Nat) : Statement (.dmaPull len) :=
  ⟨Nat.le_of_ble_eq_true rfl, Nat.le_of_ble_eq_true rfl, 5, rfl, by decide, by decide, ⟨fun h => absurd h Bool.false_ne_true, fun h => absurd h (by decide)⟩⟩

theorem cddaAdvance : Statement (.cddaAdvance) :=
  ⟨by decide, by decide, 5, rfl, by decide, by decide, ⟨fun h => absurd h Bool.false_ne_true, fun h => absurd h (by decide)⟩⟩

theorem trayClose : Statement (.trayClose) :=
  ⟨by decide, by decide, 5, rfl, by decide, by decide, ⟨fun h => absurd h Bool.false_ne_true, fun h => absurd h (by decide)⟩⟩

theorem hardReset : Statement (.hardReset) :=
  ⟨by decide, by decide, 5, rfl, by decide, by decide, ⟨fun h => absurd h Bool.false_ne_true, fun h => absurd h (by decide)⟩⟩

end Sys2Proof.Laws.RecordShape
end

