-- ==== Sys2Proof/Laws/Phases.lean ====
section
/-! SUPPORT. How an awaited packet runs and ends, in the terms of Safety.lean: the status and reason bits after each path, the
completion, the failure, the data phase to the host, the response, and the drive's two questions. -/

namespace Sys2Proof.Machine

open Sys2Proof

/-! ## The status and reason bits after a path -/

/-- The packet path to a plain completion. -/
theorem status_packet_done (w : Byte) :
    putBit (putBit (putBit (putBit (putBit (putBit (putBit w drqBit false) bsyBit true) drdyBit true) drqBit false) bsyBit false)
      drdyBit true) bsyBit false = (w &&& 0x77#8) ||| 0x40#8 := by revert w; decide

/-- The packet path to a completion that has set DSC. -/
theorem status_packet_positioned (w : Byte) :
    putBit (putBit (putBit (putBit (putBit (putBit (putBit (putBit w drqBit false) bsyBit true) dscBit true) drdyBit true) drqBit false)
      bsyBit false) drdyBit true) bsyBit false = (w &&& 0x77#8) ||| 0x50#8 := by revert w; decide

/-- The packet path to a failure. -/
theorem status_packet_failed (w : Byte) :
    putBit (putBit (putBit (putBit (putBit (putBit (putBit (putBit w drqBit false) bsyBit true) checkBit true) drdyBit true)
      drqBit false) bsyBit false) drdyBit true) bsyBit false = (w &&& 0x77#8) ||| 0x41#8 := by revert w; decide

/-- The completion procedure alone. -/
theorem status_done (w : Byte) :
    putBit (putBit (putBit (putBit (putBit w drdyBit true) drqBit false) bsyBit false) drdyBit true) bsyBit false =
      (w &&& 0x77#8) ||| 0x40#8 := by revert w; decide

/-- The packet path to a data phase. -/
theorem status_packet_phase (w : Byte) :
    putBit (putBit (putBit (putBit w drqBit false) bsyBit true) drqBit true) bsyBit false = (w &&& 0x7F#8) ||| 0x08#8 := by
  revert w; decide

/-- The reason of the status phase. -/
theorem reason_done (w : Byte) : putBit (putBit w codBit true) ioBit true = w ||| 0x03#8 := by revert w; decide

/-- The reason of a phase to the host. -/
theorem reason_to_host (w : Byte) : putBit (putBit w codBit false) ioBit true = (w &&& 0xFC#8) ||| 0x02#8 := by revert w; decide

/-- The reason of a phase from the host. -/
theorem reason_from_host (w : Byte) : putBit (putBit w codBit false) ioBit false = w &&& 0xFC#8 := by revert w; decide

/-! ## An accepted command -/

/-- An accepted command write sets BSY and clears DRDY, nothing else (R169). -/
theorem acceptCommand_eq (s : State) :
    acceptCommand s = { s with status := (s.status &&& 0x3F#8) ||| 0x80#8 } := by
  have h : ∀ w : Byte, putBit (putBit w bsyBit true) drdyBit false = (w &&& 0x3F#8) ||| 0x80#8 := by decide
  show { s with status := putBit (putBit s.status bsyBit true) drdyBit false } = _
  rw [h]

/-- A command is not applied outside `gds_waitcmd`, SOFT_RESET aside, and else runs on the accepted state (R169). -/
theorem commandWrite_cases (code : Byte) (h : Act) (s : State) :
    (code ≠ 0x08 ∧ s.state ≠ .waitcmd ∧ commandWrite code h s = misused .commandWhileBusy s) ∨
    ((code = 0x08 ∨ s.state = .waitcmd) ∧ commandWrite code h s = h (acceptCommand s)) := by
  unfold commandWrite
  split
  · rename_i c; exact .inl ⟨c.1, c.2, rfl⟩
  · rename_i c
    refine .inr ⟨?_, rfl⟩
    by_cases hc : code = 0x08
    · exact .inl hc
    · exact .inr (Classical.not_not.mp fun hs => c ⟨hc, hs⟩)

/-! ## An awaited packet -/

/-- The state in which an awaited packet's handler starts (R173). -/
abbrev dispatched (opcode : Byte) (p : Params) (s : State) : State := startPacket { s with packet := Packet.full opcode p }

/-- The state after the provider was asked for the disc. -/
abbrev askedPresent (s : State) : State :=
  { s.asking .isDiscPresent with answers := { s.answers with present := s.answers.presentAgain } }

/-- An awaited packet is its handler's outcome. -/
theorem runPacket_awaiting (opcode : Byte) (h : Params → Act) (p : Params) (s : State) (a : s.awaiting) :
    runPacket opcode h p s = applied s (h p (dispatched opcode p s)) := by
  unfold runPacket
  rw [whileLive_live s _ a.1, if_pos a.2]

/-- An awaited packet whose handler is applied goes on to what it leaves. -/
theorem runPacket_next (opcode : Byte) (h : Params → Act) (p : Params) (s t : State) (a : s.awaiting)
    (e : h p (dispatched opcode p s) = .ok t) : runPacket opcode h p s = .next t := by
  rw [runPacket_awaiting opcode h p s a, e]
  rfl

/-! ## The drive's two questions -/

/-- A ready drive answers yes, with one query. -/
theorem discReady_ready (s : State) (h : s.ready) : discReady s = (true, askedPresent s) := by
  rcases discReady_cases s with ⟨h1, _⟩ | ⟨_, e⟩
  · rw [h.1] at h1; cases h1
  · rw [e, h.2]

/-- A ready drive lets `need_ready` go on. -/
theorem needReady_ready (k : Act) (s : State) (h : s.ready) : needReady k s = k (askedPresent s) := by
  unfold needReady
  rw [discReady_ready s h]
  rfl

/-- A drive that is not ready answers no, and only the queries and the answers can have changed. -/
theorem discReady_not_ready (s : State) (h : ¬ s.ready) :
    ∃ a, discReady s = (false, { s with
      obs := { s.obs with queries := s.obs.queries ++ (if s.trayOpen then [] else [.isDiscPresent]) }, answers := a }) := by
  rcases discReady_cases s with ⟨h1, e⟩ | ⟨h1, e⟩
  · exact ⟨s.answers, by rw [e, if_pos h1, List.append_nil]⟩
  · have h2 : s.answers.present = false := by
      cases hp : s.answers.present with
      | false => rfl
      | true => exact absurd ⟨h1, hp⟩ h
    exact ⟨{ s.answers with present := s.answers.presentAgain }, by rw [e]; simp [h1, h2, State.asking]⟩

/-- Without a TOC the query fails after asking for it. -/
theorem cachedToc_lacks (s : State) (h : s.lacksToc) : cachedToc s = (none, s.asking .getTOC) := by
  rcases cachedToc_cases s with ⟨t, h1, _⟩ | ⟨_, t, h2, h3, _⟩ | ⟨_, _, e⟩
  · rw [h.1] at h1; cases h1
  · rw [h.2 t h2] at h3; cases h3
  · exact e

/-- With a TOC the query gives it, from the cache or into the cache. -/
theorem cachedToc_has (s : State) (t : Toc) (h : s.hasToc t) :
    cachedToc s = (some t, if s.tocCache = none then (s.asking .getTOC).keepToc t else s) := by
  rcases cachedToc_cases s with ⟨u, h1, e⟩ | ⟨h1, u, h2, h3, e⟩ | ⟨h1, h2, e⟩
  · rcases h with h | h
    · rw [h1] at h; cases h; rw [e, h1]; rfl
    · rw [h1] at h; cases h.1
  · rcases h with h | h
    · rw [h1] at h; cases h
    · rw [h2] at h; cases h.2.1; rw [e, h1]; rfl
  · rcases h with h | h
    · rw [h1] at h; cases h
    · have := h2 t h.2.1; rw [this] at h; cases h.2.2

/-! ## How an operation ends -/

/-- The completion procedure ends the command. -/
theorem commandEnds_done (k : IrqKind) (set : Byte) (asked : List Query) (s u : State)
    (h1 : (enterProcpacketdone k u).status = (s.status &&& 0x77#8) ||| set) (h2 : u.intReason = s.intReason)
    (h3 : u.obs = { s.obs with queries := s.obs.queries ++ asked }) : CommandEnds set k asked s (enterProcpacketdone k u) := by
  constructor
  · rfl
  · exact h1
  · rw [enterProcpacketdone_intReason, h2]; exact reason_done _
  · exact ⟨rfl, rfl⟩
  · rfl
  · rw [Shows, enterProcpacketdone_obs, h3]

/-- A packet that goes well ends without error. -/
theorem commandEnds_packet (asked : List Query) (s u : State)
    (h1 : u.status = putBit (putBit s.status drqBit false) bsyBit true) (h2 : u.intReason = s.intReason)
    (h3 : u.obs = { s.obs with queries := s.obs.queries ++ asked }) : CommandEnds 0x40#8 .complete asked s (spiDone u) :=
  commandEnds_done _ _ _ _ _ (by rw [enterProcpacketdone_status, h1]; exact status_packet_done _) h2 h3

/-- A positioning packet that goes well ends without error and with DSC. -/
theorem commandEnds_positioned (asked : List Query) (s u : State)
    (h1 : u.status = putBit (putBit (putBit s.status drqBit false) bsyBit true) dscBit true) (h2 : u.intReason = s.intReason)
    (h3 : u.obs = { s.obs with queries := s.obs.queries ++ asked }) : CommandEnds 0x50#8 .complete asked s (spiDone u) :=
  commandEnds_done _ _ _ _ _ (by rw [enterProcpacketdone_status, h1]; exact status_packet_positioned _) h2 h3

/-- The failure procedure of a packet fails the command. -/
theorem commandFails_packet (key : BitVec 4) (asc : Byte) (b : ErrorBit) (asked : List Query) (s u : State)
    (h1 : u.status = putBit (putBit s.status drqBit false) bsyBit true) (h2 : u.intReason = s.intReason)
    (h3 : u.obs = { s.obs with queries := s.obs.queries ++ asked }) (h4 : u.pio = s.pio) (h5 : u.dma = s.dma) :
    CommandFails key asc (errorValue key b) asked s (raiseFail { key := key, asc := asc, ascq := 0 } b .spi u) := by
  constructor
  · rw [raiseFail_spi]
    refine commandEnds_done _ _ _ _ _ ?_ h2 h3
    rw [enterProcpacketdone_status]
    show putBit (putBit (putBit (putBit (putBit (putBit u.status checkBit true) _ _) _ _) _ _) _ _) _ _ = _
    rw [h1]; exact status_packet_failed _
  · rw [raiseFail_spi]; rfl
  · rw [raiseFail_spi]; rfl
  · rw [raiseFail_spi, enterProcpacketdone_pio]; simp [h4]
  · rw [raiseFail_spi, enterProcpacketdone_dma]; simp [h5]

/-- The response procedure with bytes opens a phase to the host over them. -/
theorem phaseToHost_responding (bytes : List Byte) (keep : Byte) (next : GdState) (asked : List Query) (s u : State)
    (h1 : putBit (putBit u.status drqBit true) bsyBit false = (s.status &&& keep) ||| 0x08#8)
    (h2 : u.intReason = s.intReason) (h3 : u.obs = { s.obs with queries := s.obs.queries ++ asked })
    (h4 : u.pio.data = s.pio.data) : PhaseToHost bytes keep next asked s (responding bytes next u) := by
  have hl := evenBytes_length bytes
  constructor
  · rfl
  · exact h1
  · show putBit (putBit u.intReason codBit false) ioBit true = _
    rw [h2]; exact reason_to_host _
  · show (BitVec.ofNat 16 (2 * ((bytes.length + 1) / 2))).toNat = _
    simp [BitVec.toNat_ofNat]
  · exact ⟨rfl, rfl, rfl⟩
  · intro a ha
    show Memory.read (Memory.load u.pio.data (evenBytes bytes)) a = _
    rw [Memory.read_load_inside _ _ _ (by omega)]
    unfold evenBytes; split
    · simp [List.getD, List.getElem?_append, ha]
    · rfl
  · intro ho
    show Memory.read (Memory.load u.pio.data (evenBytes bytes)) bytes.length = _
    rw [Memory.read_load_inside _ _ _ (by omega)]
    unfold evenBytes; rw [if_pos ho]
    simp [List.getD]
  · intro a ha
    show Memory.read (Memory.load u.pio.data (evenBytes bytes)) a = _
    rw [Memory.read_load_outside _ _ _ (by omega), h4]
  · rfl
  · show { u.obs with irqs := u.obs.irqs ++ [IrqKind.dataRequest] } = _
    rw [h3]

/-- A packet's response within the capacity is a phase to the host, or a plain completion when it is empty; nothing but the
fields named changes. -/
theorem packetResponds_respond (bytes : List Byte) (keep : Byte) (asked : List Query) (s u : State) (hb : bytes.length ≤ 65536)
    (h0 : (enterProcpacketdone .complete u).status = ((s.status &&& keep) &&& 0x77#8) ||| 0x40#8)
    (h1 : putBit (putBit u.status drqBit true) bsyBit false = (s.status &&& keep) ||| 0x08#8)
    (h2 : u.intReason = s.intReason) (h3 : u.obs = { s.obs with queries := s.obs.queries ++ asked })
    (h4 : u.pio = s.pio) (h5 : u.byteCount = s.byteCount) (h6 : u.readParams = s.readParams) (h7 : u.pioLimit = s.pioLimit) :
    ∃ t, pioRespond bytes .pioEnd u = .ok t ∧ PacketResponds bytes keep asked s t ∧
      t = { u with state := t.state, status := t.status, intReason := t.intReason, readParams := t.readParams, pioLimit := t.pioLimit,
                   intrq := t.intrq, obs := t.obs, byteCount := t.byteCount, pio := t.pio } := by
  rw [pioRespond_fits _ _ _ hb]
  refine ⟨_, rfl, ⟨?_, ?_⟩, ?_⟩
  · intro h; rw [if_pos h]
    exact ⟨commandEnds_done _ _ _ _ _ h0 h2 h3, h4, h5⟩
  · intro h; rw [if_neg h]
    exact ⟨phaseToHost_responding _ _ _ _ _ _ h1 h2 h3 (by rw [h4]), h6, h7⟩
  · split <;> rfl

end Sys2Proof.Machine
end

