-- ==== Sys2Proof/Laws/Runs.lean ====
section
/-! SUPPORT. Runs (R391): the states of a run are reachable, the operations and the start determine them, and an ended run stays
as its last operation left it. Snapshots (R51): what is captured is what is restored. -/

namespace Sys2Proof.Machine

open Sys2Proof

/-- A run's first state is reachable. -/
theorem Run.reachable_start {ops : Nat → Option Input} {states : Nat → State} (r : Run ops states) : Reachable (states 0) := by
  rcases r.starts with ⟨c, hc, e⟩ | ⟨now, saved, hn, hs, hc, e⟩
  · exact e ▸ .start c [] hc
  · exact e ▸ .restored hn hs hc

/-- Every state of a run is reachable. -/
theorem Run.reachable {ops : Nat → Option Input} {states : Nat → State} (r : Run ops states) (n : Nat) : Reachable (states n) := by
  induction n with
  | zero => exact r.reachable_start
  | succ n ih =>
    cases h : ops n with
    | none => exact r.waits n h ▸ ih
    | some x => exact .next (.applying [x] ih) (r.goes n x h)

/-- Two runs with one start, the same operations and the same provider answers agree in every state, and so in everything an
observer sees (R391). -/
theorem Run.determined {ops : Nat → Option Input} {a b : Nat → State} (ra : Run ops a) (rb : Run ops b) (h0 : a 0 = b 0)
    (n : Nat) : a n = b n := by
  induction n with
  | zero => exact h0
  | succ n ih =>
    cases h : ops n with
    | none => rw [ra.waits n h, rb.waits n h, ih]
    | some x =>
      have e := ra.goes n x h
      rw [ih, rb.goes n x h] at e
      injection e with e
      exact e.symm

/-- A run to which nothing more is applied stays where its last operation left it (R391). -/
theorem Run.ended {ops : Nat → Option Input} {states : Nat → State} (r : Run ops states) (n : Nat)
    (h : ∀ k, n ≤ k → ops k = none) (k : Nat) : states (n + k) = states n := by
  induction k with
  | zero => rfl
  | succ k ih => rw [← Nat.add_assoc, r.waits (n + k) (h _ (Nat.le_add_right n k)), ih]

/-- Restoring what was captured a moment ago changes nothing (R51). -/
theorem State.restore_self (s : State) : State.restore s s = s := rfl

/-- A later restore wins whole (R51). -/
theorem State.restore_restore (now first second : State) :
    State.restore (State.restore now first) second = State.restore now second := rfl

end Sys2Proof.Machine
end

