-- ==== Sys2Proof/Tests/Slice0.lean ====
section
/-! SUPPORT. Tests: the well-formedness checks, the decoding of every constructor, one step of every instruction on small states
(expected values from spec/95_test_vectors.md or from the rule named), and a witness for every statement with hypotheses. -/

namespace Sys2Proof.Tests

open Sys2Proof Sys2Proof.Machine

/-! ## Small states -/

/-- `DISC_A`'s TOC (spec/95_test_vectors.md). -/
def tocA : Toc := ⟨1, 1, 2, [⟨150, 4, 1⟩, ⟨1000, 0, 1⟩], ⟨5000, 0, 1⟩, [⟨1, 150⟩]⟩

/-- A present disc with that TOC; a batch of sectors of the small descriptor 0x10 is 64 bytes of 7. -/
def disc (sectors : List Byte) : Answers := ⟨true, true, some tocA, some sectors⟩

/-- A configuration with one further sector size, 4 bytes for the descriptor 0x10. -/
def config : Config := ⟨[(0x10, 4)], List.replicate 80 0x5A, hwInfoDefault, []⟩

/-- Idle after a reset with the disc in (VG1). -/
def idle : State := { State.reset with cfg := config, sectNum := 0x02, answers := disc [] }

/-- The packet command accepted (VA5). -/
def waiting : State := { idle with state := .waitpacket, status := 0x08, intReason := 0x01 }

/-- The packet command accepted with no disc in. -/
def waitingEmpty : State := { waiting with answers := Answers.noDisc, sectNum := 0x07 }

/-- In the send phase with two words, 0x2211 and 0x4433. -/
def sending (cursor : Nat) (next : GdState) : State :=
  { idle with
    state := .pioSendData, status := 0x08, intReason := 0x02, pioLimit := 4
    pio := ⟨[(0, 0x11), (1, 0x22), (2, 0x33), (3, 0x44)], cursor, 2, next⟩
    readParams := ⟨200, 0, 0x10⟩ }

/-- In the receive phase of a SET_MODE with two words. -/
def receiving (cursor : Nat) : State :=
  { idle with
    state := .pioGetData, status := 0x08, intReason := 0x00
    pio := ⟨[], cursor, 2, .processSetMode⟩
    setMode := ⟨2, 4⟩ }

/-- In the DMA phase with eight bytes and `left` sectors still to fetch. -/
def pulling (left : Nat) : State :=
  { idle with
    state := .readsectorDma, status := 0x80, intReason := 0x01
    dma := ⟨[(0, 1), (1, 2), (2, 3), (3, 4), (4, 5), (5, 6), (6, 7), (7, 8)], 0, 8⟩
    readParams := ⟨200, left, 0x10⟩ }

/-- Playing 1000 to 1010 at the frame `current`. -/
def playing (s : State) (current : Fad) (repeats : BitVec 4) : State :=
  { s with cdda := ⟨.playing, repeats, current, 1010, 1000, .none⟩, sectNum := 0x13, tocCache := some tocA }

/-- A packet's parameters from `b[1]` to `b[4]`, the rest 0. -/
def pars (b1 b2 b3 b4 : Byte) : Params := ⟨b1, b2, b3, b4, 0, 0, 0, 0, 0, 0, 0⟩

/-- One sector of descriptor 0x10 from 150, as CD_READ. -/
def readOne : Params := ⟨0x20, 0, 0, 0x96, 0, 0, 0, 0, 0, 1, 0⟩

/-- One sector of descriptor 0x10 from 150, as CD_READ2. -/
def readOne2 : Params := ⟨0x20, 0, 0, 0x96, 0, 0, 1, 0, 0, 0, 0⟩

/-- CD_PLAY's parameters for 1000 to 1010 (S4). -/
def playRange : Params := ⟨1, 0, 3, 0xE8, 0, 0, 0, 0, 3, 0xF2, 0⟩

/-- The operation goes on to a state with the property. -/
def gives (r : Result) (f : State → Bool) : Bool :=
  match r with
  | .next t => f t
  | .fault _ => false
  | .refused _ => false

/-! ## Well-formedness -/

theorem test_wf_refuses_size_zero : (Instr.rData 0).wellFormed = false := by decide
theorem test_wf_refuses_size_256 : (Instr.wFeatures 256 0).wellFormed = false := by decide
theorem test_wf_refuses_wide_value : (Instr.wData 1 0x0100).wellFormed = false := by decide
theorem test_wf_refuses_known_code : (Instr.ataUnknown 0xA0).wellFormed = false := by decide
theorem test_wf_refuses_known_opcode : (Instr.spiUnrecognized 0x30 readOne).wellFormed = false := by decide
theorem test_wf_refuses_long_pull : (Instr.dmaPull 4294967296).wellFormed = false := by decide

/-! ## Decoding: a record written out for every constructor (R120, R123, R124, R125, R145) -/

theorem test_decode_reads :
    decode [0x00, 0x01, 0x02] = .ok (.rData 2) ∧ decode [0x01, 0x01, 0x01] = .ok (.rError 1) ∧
    decode [0x02, 0x01, 0x01] = .ok (.rIntreason 1) ∧ decode [0x03, 0x01, 0x01] = .ok (.rSectnum 1) ∧
    decode [0x04, 0x01, 0x01] = .ok (.rBclow 1) ∧ decode [0x05, 0x01, 0x01] = .ok (.rBchigh 1) ∧
    decode [0x06, 0x01, 0x01] = .ok (.rDrivesel 1) ∧ decode [0x07, 0x01, 0x01] = .ok (.rStatus 1) :=
  ⟨rfl, rfl, rfl, rfl, rfl, rfl, rfl, rfl⟩

theorem test_decode_writes :
    decode [0x00, 0x02, 0x02, 0x30, 0x24] = .ok (.wData 2 0x2430) ∧
    decode [0x01, 0x02, 0x01, 0x03, 0x00] = .ok (.wFeatures 1 0x03) ∧
    decode [0x02, 0x02, 0x01, 0x22, 0x00] = .ok (.wSectcount 1 0x22) ∧
    decode [0x03, 0x02, 0x01, 0xFF, 0x00] = .ok (.wSectnum 1 0xFF) ∧
    decode [0x04, 0x02, 0x01, 0x34, 0x00] = .ok (.wBclow 1 0x34) ∧
    decode [0x05, 0x02, 0x01, 0x12, 0x00] = .ok (.wBchigh 1 0x12) ∧
    decode [0x06, 0x02, 0x01, 0xA0, 0x00] = .ok (.wDrivesel 1 0xA0) ∧
    decode [0x07, 0x02, 0x01, 0xA0, 0x00] = .ok (.wCommand 1 0xA0) :=
  ⟨rfl, rfl, rfl, rfl, rfl, rfl, rfl, rfl⟩

theorem test_decode_commands :
    decode [0x00, 0x03] = .ok .nop ∧ decode [0x08, 0x03] = .ok .softReset ∧ decode [0x90, 0x03] = .ok .execDiag ∧
    decode [0xA0, 0x03] = .ok .spiPacket ∧ decode [0xA1, 0x03] = .ok .identifyDevice ∧ decode [0xEC, 0x03] = .ok .identify ∧
    decode [0xEF, 0x03] = .ok .setFeatures ∧ decode [0x20, 0x03] = .ok (.ataUnknown 0x20) :=
  ⟨rfl, rfl, rfl, rfl, rfl, rfl, rfl, rfl⟩

theorem test_decode_information_packets :
    decode [0x00, 0x04, 1, 2, 3, 4, 5, 6, 7, 8, 9, 10, 11] = .ok (.testUnit ⟨1, 2, 3, 4, 5, 6, 7, 8, 9, 10, 11⟩) ∧
    decode [0x10, 0x04, 1, 2, 3, 4, 5, 6, 7, 8, 9, 10, 11] = .ok (.reqStat ⟨1, 2, 3, 4, 5, 6, 7, 8, 9, 10, 11⟩) ∧
    decode [0x11, 0x04, 1, 2, 3, 4, 5, 6, 7, 8, 9, 10, 11] = .ok (.reqMode ⟨1, 2, 3, 4, 5, 6, 7, 8, 9, 10, 11⟩) ∧
    decode [0x12, 0x04, 1, 2, 3, 4, 5, 6, 7, 8, 9, 10, 11] = .ok (.setMode ⟨1, 2, 3, 4, 5, 6, 7, 8, 9, 10, 11⟩) ∧
    decode [0x13, 0x04, 1, 2, 3, 4, 5, 6, 7, 8, 9, 10, 11] = .ok (.reqError ⟨1, 2, 3, 4, 5, 6, 7, 8, 9, 10, 11⟩) ∧
    decode [0x14, 0x04, 1, 2, 3, 4, 5, 6, 7, 8, 9, 10, 11] = .ok (.getToc ⟨1, 2, 3, 4, 5, 6, 7, 8, 9, 10, 11⟩) ∧
    decode [0x15, 0x04, 1, 2, 3, 4, 5, 6, 7, 8, 9, 10, 11] = .ok (.reqSes ⟨1, 2, 3, 4, 5, 6, 7, 8, 9, 10, 11⟩) ∧
    decode [0x40, 0x04, 1, 2, 3, 4, 5, 6, 7, 8, 9, 10, 11] = .ok (.getScd ⟨1, 2, 3, 4, 5, 6, 7, 8, 9, 10, 11⟩) ∧
    decode [0x70, 0x04, 1, 2, 3, 4, 5, 6, 7, 8, 9, 10, 11] =
      .ok (.spiUnrecognized 0x70 ⟨1, 2, 3, 4, 5, 6, 7, 8, 9, 10, 11⟩) :=
  ⟨rfl, rfl, rfl, rfl, rfl, rfl, rfl, rfl, rfl⟩

theorem test_decode_drive_packets :
    decode [0x16, 0x04, 1, 2, 3, 4, 5, 6, 7, 8, 9, 10, 11] = .ok (.cdOpen ⟨1, 2, 3, 4, 5, 6, 7, 8, 9, 10, 11⟩) ∧
    decode [0x20, 0x04, 1, 2, 3, 4, 5, 6, 7, 8, 9, 10, 11] = .ok (.cdPlay ⟨1, 2, 3, 4, 5, 6, 7, 8, 9, 10, 11⟩) ∧
    decode [0x21, 0x04, 1, 2, 3, 4, 5, 6, 7, 8, 9, 10, 11] = .ok (.cdSeek ⟨1, 2, 3, 4, 5, 6, 7, 8, 9, 10, 11⟩) ∧
    decode [0x22, 0x04, 1, 2, 3, 4, 5, 6, 7, 8, 9, 10, 11] = .ok (.cdScan ⟨1, 2, 3, 4, 5, 6, 7, 8, 9, 10, 11⟩) ∧
    decode [0x30, 0x04, 1, 2, 3, 4, 5, 6, 7, 8, 9, 10, 11] = .ok (.cdRead ⟨1, 2, 3, 4, 5, 6, 7, 8, 9, 10, 11⟩) ∧
    decode [0x31, 0x04, 1, 2, 3, 4, 5, 6, 7, 8, 9, 10, 11] = .ok (.cdRead2 ⟨1, 2, 3, 4, 5, 6, 7, 8, 9, 10, 11⟩) :=
  ⟨rfl, rfl, rfl, rfl, rfl, rfl⟩

theorem test_decode_events :
    decode [0x00, 0x05] = .ok .dmaAvail ∧ decode [0x01, 0x05, 0x00, 0x80, 0x00, 0x00] = .ok (.dmaPull 32768) ∧
    decode [0x02, 0x05] = .ok .cddaAdvance ∧ decode [0x03, 0x05] = .ok .trayClose ∧ decode [0x04, 0x05] = .ok .hardReset :=
  ⟨rfl, rfl, rfl, rfl, rfl⟩

theorem test_decode_refuses_by_name :
    decode [] = .error .emptyRecord ∧ decode [0x00, 0x06] = .error .unknownFormat ∧
    decode [0x08, 0x01, 0x01] = .error .unknownSelector ∧ decode [0x05, 0x05] = .error .unknownEvent ∧
    decode [0x30, 0x04, 0x24] = .error .badLength :=
  ⟨rfl, rfl, rfl, rfl, rfl⟩

/-- The table's one-byte words (log entry 2). -/
theorem test_table_words :
    decodeTableWord 8 0xA1 = some .identifyDevice ∧ decodeTableWord 8 0x31 = some (.cdRead2 (pars 0 0 0 0)) ∧
    decodeTableWord 3 0x05 = some (.rBchigh 1) ∧ decodeTableWord 8 0xFF = some (.ataUnknown 0xFF) :=
  ⟨rfl, rfl, rfl, rfl⟩

/-- The word placed for the next step is run by it: GET_SCD of format 0 fails (VI26). -/
theorem test_fetch_word_runs : gives (step (State.reset.withFetchWord 8 0x40)) (fun t => t.error == 0x51) = true := by decide

/-- Where a packet's word is placed, the controller is as the packet command leaves it: DRDY 0 (VA5). -/
theorem test_fetch_word_awaits :
    (State.reset.withFetchWord 8 0x40).status = 0x08 ∧ (State.reset.withFetchWord 8 0x40).intReason = 0x01 ∧
    (State.reset.withFetchWord 8 0x40).state = .waitpacket := by decide

/-! ## The register port -/

theorem test_rData_takes_low_byte_first :
    gives (exec (.rData 2) (sending 0 .pioEnd)) (fun t => t.obs.returned == some (.word 0x2211) && t.pio.cursor == 1) = true := by
  decide

theorem test_rData_last_word_completes :
    gives (exec (.rData 2) (sending 1 .pioEnd)) (fun t => t.status == 0x40 && t.intReason == 0x03 && t.obs.irqs == [.complete]) =
      true := by decide

theorem test_rError : gives (exec (.rError 1) { idle with error := 0x51 }) (fun t => t.obs.returned == some (.byte 0x51)) = true := by
  decide

theorem test_rIntreason :
    gives (exec (.rIntreason 1) waiting) (fun t => t.obs.returned == some (.byte 0x01)) = true := by decide

theorem test_rSectnum : gives (exec (.rSectnum 1) idle) (fun t => t.obs.returned == some (.byte 0x02)) = true := by decide

theorem test_rBclow :
    gives (exec (.rBclow 1) { idle with byteCount := 0x1234 }) (fun t => t.obs.returned == some (.byte 0x34)) = true := by decide

theorem test_rBchigh :
    gives (exec (.rBchigh 1) { idle with byteCount := 0x1234 }) (fun t => t.obs.returned == some (.byte 0x12)) = true := by decide

theorem test_rDrivesel :
    gives (exec (.rDrivesel 1) { idle with driveSel := 0xA0 }) (fun t => t.obs.returned == some (.byte 0xA0)) = true := by decide

theorem test_rStatus_withdraws :
    gives (exec (.rStatus 1) { idle with intrq := true }) (fun t => t.obs.returned == some (.byte 0x40) && !t.intrq) = true := by
  decide

theorem test_rStatus_of_two_bytes_is_misuse :
    gives (exec (.rStatus 2) { idle with intrq := true }) (fun t => t.misuse == some .badAccessSize && t.intrq) = true := by decide

theorem test_wData_puts_packet_bytes :
    gives (exec (.wData 2 0x2430) waiting)
      (fun t => t.packet == ⟨[0x30, 0x24, 0, 0, 0, 0, 0, 0, 0, 0, 0, 0], 2⟩) = true := by decide

/-- VI10's second word: bytes 2, 4 and 5 are stored, byte 3 is dropped. -/
theorem test_wData_ends_set_mode :
    gives (exec (.wData 2 0x2C01) { receiving 1 with pio := ⟨[(0, 0x01)], 1, 2, .processSetMode⟩ })
      (fun t => (t.hwInfo.drop 2).take 4 == [0x01, 0x00, 0x01, 0x2C] && t.obs.irqs == [.complete]) = true := by decide

theorem test_wFeatures : gives (exec (.wFeatures 1 0xAA) idle) (fun t => t.features == 0xAA && t.error == 0) = true := by decide

theorem test_wSectcount :
    gives (exec (.wSectcount 1 0x55) idle) (fun t => t.sectCount == 0x55 && t.intReason == 0) = true := by decide

theorem test_wSectnum_is_ignored : gives (exec (.wSectnum 1 0xFF) idle) (fun t => t.sectNum == 0x02) = true := by decide

theorem test_wBclow :
    gives (exec (.wBclow 1 0x34) { idle with byteCount := 0xABCD }) (fun t => t.byteCount == 0xAB34) = true := by decide

theorem test_wBchigh :
    gives (exec (.wBchigh 1 0x12) { idle with byteCount := 0xABCD }) (fun t => t.byteCount == 0x12CD) = true := by decide

theorem test_wDrivesel : gives (exec (.wDrivesel 1 0xA0) idle) (fun t => t.driveSel == 0xA0) = true := by decide

theorem test_wCommand_dispatches :
    gives (exec (.wCommand 1 0xA0) idle) (fun t => t.state == .waitpacket && t.status == 0x08 && t.intReason == 0x01) = true := by
  decide

theorem test_wCommand_while_busy :
    gives (exec (.wCommand 1 0xA0) waiting) (fun t => t.misuse == some .commandWhileBusy && t.state == .waitpacket) = true := by
  decide

/-! ## ATA commands -/

theorem test_nop : gives (exec .nop idle) (fun t => t.status == 0x40 && t.intReason == 0 && t.intrq) = true := by decide

/-- VA10: the error stays pending over a NOP. -/
theorem test_nop_keeps_error :
    gives (exec .nop { idle with status := 0x41, error := 0x54 }) (fun t => t.status == 0x41 && t.error == 0x54) = true := by decide

/-- VA3. -/
theorem test_softReset_in_a_phase :
    gives (exec .softReset (sending 1 .pioEnd))
      (fun t => t.status == 0x40 && t.pio.size == 0 && t.state == .waitcmd && t.obs.irqs == [.complete]) = true := by decide

/-- VA2. -/
theorem test_execDiag :
    gives (exec .execDiag { playing idle 1003 0 with status := 0x50 })
      (fun t => t.cdda == ⟨.noInfo, 0, 150, 150, 150, .none⟩ && t.status == 0x40 && t.sectNum == 0x02) = true := by decide

theorem test_spiPacket : gives (exec .spiPacket idle) (fun t => t.status == 0x08 && t.obs.irqs == []) = true := by decide

/-- VA6. -/
theorem test_identifyDevice :
    gives (exec .identifyDevice idle)
      (fun t => t.status == 0x08 && t.intReason == 0x02 && t.byteCount == 0x0050 && pioWord t 39 == 0x5A5A) = true := by decide

theorem test_identify :
    gives (exec .identify idle) (fun t => t.pio.size == 40 && t.obs.irqs == [.dataRequest] && pioWord t 0 == 0x5A5A) = true := by
  decide

/-- VA8, pair 0x03, 0x22. -/
theorem test_setFeatures_dma :
    gives (exec .setFeatures { idle with features := 0x03, sectCount := 0x22 })
      (fun t => t.dmaEnable && t.transferMode == 0x22 && t.status == 0x40) = true := by decide

/-- VA8, pair 0x03, 0x18. -/
theorem test_setFeatures_invalid :
    gives (exec .setFeatures { idle with features := 0x03, sectCount := 0x18 })
      (fun t => t.error == 0xB4 && t.status == 0x41 && !t.dmaEnable && t.obs.irqs == [.error]) = true := by decide

/-- VA9. -/
theorem test_ataUnknown :
    gives (exec (.ataUnknown 0x20) idle)
      (fun t => t.status == 0x41 && t.error == 0x54 && t.sense == ⟨5, 0x20, 0⟩ && t.intReason == 0) = true := by decide

/-! ## Information packets -/

/-- VI1. -/
theorem test_testUnit_no_disc :
    gives (exec (.testUnit (pars 0 0 0 0)) waitingEmpty)
      (fun t => t.status == 0x41 && t.error == 0x20 && t.intReason == 0x03) = true := by decide

/-- VI2. -/
theorem test_testUnit_ready :
    gives (exec (.testUnit (pars 0 0 0 0)) waiting) (fun t => t.status == 0x40 && t.obs.irqs == [.complete]) = true := by decide

/-- VI3. -/
theorem test_reqStat :
    gives (exec (.reqStat (pars 0 0 0 0x0A)) waiting)
      (fun t => (List.range 5).map (pioWord t) == [0x1002, 0x0141, 0x0001, 0x9600, 0x0008] && t.sectNum == 0x12) = true := by decide

/-- VI7: the odd tail is padded. -/
theorem test_reqStat_odd_window :
    gives (exec (.reqStat (pars 0 0 0 3)) waiting)
      (fun t => (List.range 2).map (pioWord t) == [0x1002, 0x0041] && t.byteCount == 4) = true := by decide

/-- VI9. -/
theorem test_reqMode :
    gives (exec (.reqMode (pars 0 0x12 0 8)) waiting)
      (fun t => (List.range 4).map (pioWord t) == [0x6552, 0x2076, 0x2E36, 0x3334]) = true := by decide

/-- VI10's packet. -/
theorem test_setMode_opens :
    gives (exec (.setMode (pars 0 2 0 4)) waiting)
      (fun t => t.status == 0x08 && t.intReason == 0 && t.byteCount == 4 && t.setMode == ⟨2, 4⟩) = true := by decide

/-- VI13. -/
theorem test_setMode_outside :
    gives (exec (.setMode (pars 0 33 0 0)) waiting) (fun t => t.error == 0x51 && t.state == .waitcmd) = true := by decide

/-- VI15's packet. -/
theorem test_reqError :
    gives (exec (.reqError (pars 0 0 0 0x0A)) { waiting with error := 0x20, status := 0x09, sense := ⟨2, 0x3A, 0⟩ })
      (fun t => (List.range 5).map (pioWord t) == [0x00F0, 0x0002, 0x0000, 0x0000, 0x003A] && t.status == 0x08 && t.error == 0) =
      true := by decide

/-- VI20. -/
theorem test_getToc :
    gives (exec (.getToc (pars 0 0 0 4)) waiting)
      (fun t => (List.range 2).map (pioWord t) == [0x0041, 0x9600] && t.tocCache == some tocA) = true := by decide

/-- VI22. -/
theorem test_getToc_medium_error :
    gives (exec (.getToc (pars 0 0 1 0x98)) { waiting with answers := { disc [] with toc := none } })
      (fun t => t.error == 0x30 && t.sense == ⟨3, 0x11, 0⟩) = true := by decide

/-- R101, R104: a TOC whose DiscFormat is no code of R30 counts as error (log entry 16), one of format 8 does not. -/
theorem test_toc_format_code :
    answeredToc { disc [] with toc := some { tocA with discFormat := 5 } } = none ∧
    answeredToc { disc [] with toc := some { tocA with discFormat := 8 } } = some { tocA with discFormat := 8 } := by decide

/-- VI23, session 1. -/
theorem test_reqSes :
    gives (exec (.reqSes (pars 0 1 0 6)) waiting)
      (fun t => (List.range 3).map (pioWord t) == [0x0002, 0x0001, 0x9600]) = true := by decide

/-- VI23, session 2. -/
theorem test_reqSes_missing_session :
    gives (exec (.reqSes (pars 0 2 0 6)) waiting) (fun t => t.error == 0x51 && t.sense == ⟨5, 0x24, 0⟩) = true := by decide

/-- VI25. -/
theorem test_getScd :
    gives (exec (.getScd (pars 1 0 0 0x0E)) (playing waiting 1003 0))
      (fun t => (List.range 7).map (pioWord t) == [0x1100, 0x0E00, 0x0201, 0x0001, 0x0300, 0x0000, 0xEB03]) = true := by decide

/-- VI26. -/
theorem test_getScd_other_format : gives (exec (.getScd (pars 0 0 0 0x0E)) waiting) (fun t => t.error == 0x51) = true := by decide

/-- VI28. -/
theorem test_spiUnrecognized :
    gives (exec (.spiUnrecognized 0x70 (pars 0 0 0 0)) waiting)
      (fun t => t.status == 0x41 && t.error == 0x51 && t.sense == ⟨5, 0x20, 0⟩) = true := by decide

/-! ## Tray, playback and sector reads -/

/-- VC18. -/
theorem test_cdOpen :
    gives (exec (.cdOpen (pars 0 0 0 0)) (playing waiting 1000 0))
      (fun t => t.sectNum == 0x06 && t.cdda == ⟨.terminated, 0, 1000, 1010, 1000, .none⟩ && t.tocCache == none) = true := by decide

/-- S4. -/
theorem test_cdPlay :
    gives (exec (.cdPlay playRange) waiting)
      (fun t => t.cdda == ⟨.playing, 0, 1000, 1010, 1000, .none⟩ && t.status == 0x50 && t.sectNum == 0x13) = true := by decide

/-- R269 from a status that is not Paused. -/
theorem test_cdPlay_resume_nothing :
    gives (exec (.cdPlay (pars 7 0 0 0)) waiting) (fun t => t.cdda == idle.cdda && t.status == 0x40) = true := by decide

/-- R270 from NoInfo. -/
theorem test_cdSeek :
    gives (exec (.cdSeek (pars 1 0 3 0xE8)) waiting)
      (fun t => t.cdda == ⟨.paused, 0, 1000, 150, 150, .none⟩ && t.sectNum == 0x01 && t.status == 0x50) = true := by decide

/-- R272 while playing. -/
theorem test_cdSeek_pauses :
    gives (exec (.cdSeek (pars 4 0 0 0)) (playing waiting 1003 0))
      (fun t => t.cdda == ⟨.paused, 0, 1003, 1010, 1000, .none⟩ && t.sectNum == 0x11) = true := by decide

/-- R274 in reverse. -/
theorem test_cdScan :
    gives (exec (.cdScan (pars 9 0 3 0xEA)) (playing waiting 1003 0))
      (fun t => t.cdda == ⟨.playing, 0, 1002, 1010, 1000, .reverse⟩ && t.sectNum == 0x15) = true := by decide

/-- VC17. -/
theorem test_cdScan_outside :
    gives (exec (.cdScan (pars 1 0 0 0x97)) waiting) (fun t => t.error == 0x51) = true := by decide

/-- R286, R291: a limit of 2 offers half of a four-byte sector. -/
theorem test_cdRead_pio :
    gives (exec (.cdRead readOne) { waiting with byteCount := 2, answers := disc [1, 2, 3, 4] })
      (fun t => t.state == .pioSendData && t.byteCount == 2 && pioWord t 0 == 0x0201 && t.dma.cursor == 2 &&
        t.obs.queries == [.isDiscPresent, .readSectors 150 1 0x10]) = true := by decide

/-- VR11, with a descriptor that has no size. -/
theorem test_cdRead_refuses :
    gives (exec (.cdRead { readOne with b1 := 0x26 }) { waiting with byteCount := 2 })
      (fun t => t.refused == some .unspecifiedSectorSelection && t.state == .waitpacket) = true := by decide

/-- R286, R294: with the DMA bit the bytes wait for the DMA engine. -/
theorem test_cdRead2_dma :
    gives (exec (.cdRead2 readOne2) { waiting with dmaEnable := true, answers := disc [1, 2, 3, 4] })
      (fun t => t.state == .readsectorDma && t.status == 0x80 && t.dma.size == 4 && t.readParams == ⟨151, 0, 0x10⟩ &&
        t.obs.irqs == []) = true := by decide

/-! ## Events -/

theorem test_dmaAvail : gives (exec .dmaAvail (pulling 0)) (fun t => t.obs.returned == some (.count 8)) = true := by decide

theorem test_dmaPull_some :
    gives (exec (.dmaPull 2) (pulling 0)) (fun t => t.obs.returned == some (.bytes [1, 2]) && t.dma.cursor == 2) = true := by decide

theorem test_dmaPull_refills :
    gives (exec (.dmaPull 8) { pulling 1 with answers := disc [9, 9, 9, 9] })
      (fun t => t.obs.returned == some (.bytes [1, 2, 3, 4, 5, 6, 7, 8]) && t.dma.size == 4 && t.readParams.remaining == 0) = true := by
  decide

/-- S4: the tenth tick. -/
theorem test_cddaAdvance_ends :
    gives (exec .cddaAdvance (playing idle 1009 0))
      (fun t => t.cdda == ⟨.terminated, 0, 1010, 1010, 1000, .none⟩ && t.sectNum == 0x12) = true := by decide

/-- S4 with one repeat. -/
theorem test_cddaAdvance_repeats :
    gives (exec .cddaAdvance (playing idle 1009 1)) (fun t => t.cdda == ⟨.playing, 0, 1000, 1010, 1000, .none⟩) = true := by decide

/-- VC19. -/
theorem test_trayClose :
    gives (exec .trayClose { idle with trayOpen := true, sectNum := 0x06 })
      (fun t => t.sectNum == 0x02 && !t.trayOpen && t.obs.irqs == []) = true := by decide

/-- VG1. -/
theorem test_hardReset :
    gives (exec .hardReset { sending 1 .pioEnd with sectNum := 0x13, misuse := some .packetOverrun })
      (fun t => t.sectNum == 0x02 && t.status == 0x40 && t.misuse == none && t.pio.data == []) = true := by decide

/-- R51: a restored snapshot is the saved `S`, beside the model's own fields as they are now. -/
theorem test_restore :
    (State.restore { idle with inbox := [⟨[0x00, 0x03], disc []⟩] } (sending 1 .pioEnd)).pio.cursor = 1 ∧
    (State.restore { idle with inbox := [⟨[0x00, 0x03], disc []⟩] } (sending 1 .pioEnd)).inbox.length = 1 := ⟨rfl, rfl⟩

/-- R283's mandatory sizes at their boundary descriptors. -/
theorem test_sector_sizes :
    sectorSize config 0x12 = some 2048 ∧ sectorSize config 0x15 = some 2324 ∧ sectorSize config 0x7E = some 2352 ∧
    sectorSize config 0x7F = none ∧ sectorSize config 0x10 = some 4 := ⟨rfl, rfl, rfl, rfl, rfl⟩

/-! ## Witnesses: for each statement with hypotheses, a state and operands that meet them, clause by clause -/

/-- An operation waiting on `s`, with the provider's answers `s` holds. -/
def queued (i : Instr) (s : State) : State := { s with inbox := [⟨encode i, s.answers⟩] }

/-- Awaiting a packet with a limit of two bytes and one small sector to come. -/
def waitingRead : State := { waiting with byteCount := 2, answers := disc [1, 2, 3, 4] }

/-- Awaiting a packet with an error pending. -/
def waitingError : State := { waiting with error := 0x20, status := 0x09, sense := ⟨2, 0x3A, 0⟩ }

/-- Eleven bytes of a SET_MODE of four bytes at 2 are in. -/
def lastByte : State := { waiting with packet := ⟨[0x12, 0, 2, 0, 4, 0, 0, 0, 0, 0, 0, 0], 11⟩ }

/-- Ten bytes of a CD_READ of a descriptor without a size are in. -/
def lastPair : State := { waiting with packet := ⟨[0x30, 0x26, 0, 0, 0x96, 0, 0, 0, 0, 0, 0, 0], 10⟩ }

/-- Reading by PIO, on the last word of a chunk, with `left` sectors still to fetch. -/
def lastWord (dma : DmaBuffer) (left : Nat) (sectors : List Byte) : State :=
  { sending 1 .readsectorPio with dma := dma, readParams := ⟨200, left, 0x10⟩, answers := disc sectors, pioLimit := 2 }

theorem inv_idle : Inv idle := by constructor <;> decide
theorem inv_waiting : Inv waiting := by constructor <;> decide
theorem inv_waitingRead : Inv waitingRead := by constructor <;> decide
theorem inv_waitingError : Inv waitingError := by constructor <;> decide
theorem inv_queuedRead : Inv (queued (.cdRead readOne) waitingRead) := by
  constructor <;> decide
theorem inv_queuedCommand : Inv (queued (.wCommand 1 0xA0) waiting) := by
  constructor <;> decide
theorem inv_lastByte : Inv lastByte := by constructor <;> decide
theorem inv_sending : Inv (sending 1 .pioEnd) := by constructor <;> decide

theorem witness_StepRunsTheDecodedOperation :
    idle.inbox = [] ∧ (queued .nop idle).inbox = ⟨[0x00, 0x03], disc []⟩ :: [] ∧ decode [0x00, 0x03] = .ok .nop ∧
    decode [0x08, 0x01, 0x01] = .error .unknownSelector := ⟨rfl, rfl, rfl, rfl⟩

theorem witness_DecodeOfEncodeIsTheOperation :
    (Instr.rData 255).wellFormed = true ∧ (Instr.wData 1 0x00FF).wellFormed = true ∧ (Instr.ataUnknown 0xFF).wellFormed = true ∧
    (Instr.spiUnrecognized 0x01 readOne).wellFormed = true ∧ (Instr.dmaPull 4294967295).wellFormed = true := by decide

theorem witness_EveryStepKeepsTheInvariant :
    Inv (queued (.cdRead readOne) waitingRead) ∧ ∃ t, step (queued (.cdRead readOne) waitingRead) = .next t ∧ t.readingByPio :=
  ⟨inv_queuedRead, _, rfl, by decide⟩

theorem witness_StartStatesHaveTheInvariant : config.sized ∧ Inv (sending 1 .pioEnd) ∧ (sending 1 .pioEnd).cfg = idle.cfg :=
  ⟨by decide, inv_sending, rfl⟩

theorem witness_OnlyAgentsMisuse :
    Inv (queued (.wCommand 1 0xA0) waiting) ∧ (queued (.wCommand 1 0xA0) waiting).misuse = none ∧
    ∃ t, step (queued (.wCommand 1 0xA0) waiting) = .next t ∧ t.misuse = some .commandWhileBusy :=
  ⟨inv_queuedCommand, rfl, _, rfl, rfl⟩

/-- One packet of each row, and the twelfth byte of a SET_MODE. -/
theorem witness_StateChangesFollowTheTable :
    (Inv waiting ∧ ∃ t, exec (.testUnit (pars 0 0 0 0)) waiting = .next t ∧ t.state = .waitcmd) ∧
    (∃ t, exec (.setMode (pars 0 2 0 4)) waiting = .next t ∧ t.state = .pioGetData) ∧
    (∃ t, exec (.reqMode (pars 0 0 0 4)) waiting = .next t ∧ t.state = .pioSendData) ∧
    (Inv waitingRead ∧ ∃ t, exec (.cdRead readOne) waitingRead = .next t ∧ t.state = .pioSendData) ∧
    (Inv lastByte ∧ ∃ t, exec (.wData 1 0) lastByte = .next t ∧ t.state = .pioGetData) ∧
    (∀ code, Instr.testUnit (pars 0 0 0 0) = .ataUnknown code → code ∉ ataCodes) ∧
    (Inv idle ∧ (∀ code, Instr.ataUnknown 0x20 = .ataUnknown code → code ∉ ataCodes) ∧
      ∃ t, exec (.ataUnknown 0x20) idle = .next t ∧ t.state = .waitcmd) :=
  ⟨⟨inv_waiting, _, rfl, rfl⟩, ⟨_, rfl, rfl⟩, ⟨_, rfl, rfl⟩, ⟨inv_waitingRead, _, rfl, rfl⟩, ⟨inv_lastByte, _, rfl, rfl⟩,
    nofun, inv_idle, fun code h => by injection h with h; subst h; decide, _, rfl, rfl⟩

theorem witness_AtMostOneInterrupt :
    waiting.awaiting ∧ isPacket (.testUnit (pars 0 0 0 0)) = true ∧
    ∃ t, exec (.testUnit (pars 0 0 0 0)) waiting = .next t ∧ t.obs.irqs = [.complete] := ⟨by decide, rfl, _, rfl, rfl⟩

theorem witness_PendingErrorIsSticky :
    Inv waitingError ∧ ∃ t, exec (.reqError (pars 0 0 0 10)) waitingError = .next t ∧ t.sense.key = 0 :=
  ⟨inv_waitingError, _, rfl, rfl⟩

theorem witness_ConfigurationNeverChanges : ∃ t, exec .softReset (queued .nop idle) = .next t ∧ t.inbox.length = 1 := ⟨_, rfl, rfl⟩

theorem witness_FixedIdentificationBytesStay :
    Instr.wData 2 0x2C01 ≠ .hardReset ∧ (receiving 1).hwInfo.length = 32 ∧
    ∃ t, exec (.wData 2 0x2C01) (receiving 1) = .next t ∧ t.hwInfo.getD 5 0 = 0x2C := ⟨nofun, rfl, _, rfl, by decide⟩

theorem witness_OnlyPlaybackMovesTheAudioState :
    Inv idle ∧ ¬ movesAudio .nop idle ∧ ∃ t, exec .nop idle = .next t ∧ t.intrq = true :=
  ⟨inv_idle, by simp [movesAudio, isPacket], _, rfl, rfl⟩

theorem witness_ChunksAreEvenAndFit :
    Inv waitingRead ∧ ∃ t, exec (.cdRead readOne) waitingRead = .next t ∧ t.obs.irqs ≠ waitingRead.obs.irqs ∧ t.readingByPio :=
  ⟨inv_waitingRead, _, rfl, by decide, by decide⟩

theorem witness_AfterMisuseOnlyHardReset :
    Instr.nop ≠ .hardReset ∧ { idle with misuse := some .packetOverrun }.misuse = some .packetOverrun ∧
    { idle with refused := some .unspecifiedSectorSelection }.misuse = none ∧
    { idle with refused := some .unspecifiedSectorSelection }.refused = some .unspecifiedSectorSelection :=
  ⟨nofun, rfl, rfl, rfl⟩

theorem witness_PlainRegisterReads : idle.live ∧ idle.answers.present = true := by decide

theorem witness_StatusReadWithdrawsTheRequest : (sending 1 .pioEnd).live := by decide

theorem witness_PlainRegisterWrites : (pulling 0).live ∧ idle.live := by decide

theorem witness_DataReadTakesTheNextWord :
    ((sending 0 .pioEnd).live ∧ (sending 0 .pioEnd).state = .pioSendData ∧ (sending 0 .pioEnd).pio.cursor + 1 < 2) ∧
    ((sending 1 .pioEnd).live ∧ (sending 1 .pioEnd).state = .pioSendData ∧
      (sending 1 .pioEnd).pio.cursor + 1 = (sending 1 .pioEnd).pio.size ∧ (sending 1 .pioEnd).pio.nextState = .pioEnd) := by decide

theorem witness_ResponseTakesExactlyItsWords :
    (sending 0 .pioEnd).live ∧ (sending 0 .pioEnd).state = .pioSendData ∧
    (sending 0 .pioEnd).pio.cursor < (sending 0 .pioEnd).pio.size ∧ (sending 0 .pioEnd).pio.nextState = .pioEnd := by decide

/-- The four clauses of LastWordOfAChunkGoesOn in turn: bytes left, nothing left, a refill, a refill that fails. -/
theorem witness_LastWordOfAChunkGoesOn :
    (∀ (d : DmaBuffer) (n : Nat) (l : List Byte), (lastWord d n l).live ∧ (lastWord d n l).state = .pioSendData ∧
      (lastWord d n l).pio.cursor + 1 = (lastWord d n l).pio.size ∧ (lastWord d n l).pio.nextState = .readsectorPio ∧
      2 ≤ 2 * ((lastWord d n l).pioLimit.toNat / 2)) ∧
    ((lastWord ⟨[], 7, 8⟩ 0 []).dma.cursor < (lastWord ⟨[], 7, 8⟩ 0 []).dma.size) ∧
    ((lastWord ⟨[], 8, 8⟩ 0 []).dma.cursor = (lastWord ⟨[], 8, 8⟩ 0 []).dma.size ∧ (lastWord ⟨[], 8, 8⟩ 0 []).readParams.remaining = 0) ∧
    (sectorSize (lastWord ⟨[], 8, 8⟩ 1 [1, 2, 3, 4]).cfg (lastWord ⟨[], 8, 8⟩ 1 [1, 2, 3, 4]).readParams.sectorType = some 4 ∧
      (lastWord ⟨[], 8, 8⟩ 1 [1, 2, 3, 4]).answers.sectors = some [1, 2, 3, 4] ∧ [1, 2, 3, 4].length = min 16 1 * 4) ∧
    (∀ sectors, (lastWord ⟨[], 8, 8⟩ 1 [1, 2, 3]).answers.sectors = some sectors → sectors.length ≠ min 16 1 * 4) := by
  refine ⟨fun d n l => ⟨⟨rfl, rfl⟩, rfl, rfl, rfl, show 2 ≤ 2 * ((2#16).toNat / 2) by decide⟩, by decide, by decide, ⟨rfl, rfl, rfl⟩, ?_⟩
  intro sectors h
  cases h
  decide

theorem witness_RegisterPortMisuse :
    idle.live ∧ (0 : Nat) ≠ 1 ∧ (2 : Nat) ≠ 1 ∧ writesCommand 0xA0#8 (.wCommand 1 0xFFA0) ∧ 0xA0#8 ≠ 0x08#8 ∧ waiting.live ∧
    waiting.state ≠ .waitcmd :=
  ⟨by decide, by decide, by decide, .inr ⟨0xFFA0, by decide, rfl⟩, by decide, by decide, by decide⟩

theorem witness_DataPortMisuse :
    (idle.live ∧ idle.state ≠ .pioSendData ∧ idle.state ≠ .waitpacket ∧ idle.state ≠ .pioGetData) ∧
    ((sending 0 .pioEnd).live ∧ (sending 0 .pioEnd).state = .pioSendData ∧ (1 : Nat) ≠ 2) ∧
    ((receiving 0).live ∧ (receiving 0).state = .pioGetData) ∧
    (∃ s : State, s.live ∧ s.state = .waitpacket ∧ s.packet.index = 11) ∧
    ((pulling 0).live ∧ (pulling 0).state = .readsectorDma ∧ (pulling 0).dma.size - (pulling 0).dma.cursor < 9) :=
  ⟨by decide, by decide, by decide, ⟨{ waiting with packet := ⟨List.replicate 12 0, 11⟩ }, by decide, rfl, rfl⟩, by decide⟩

theorem witness_PacketBytesCollect :
    (∃ s : State, s.live ∧ s.state = .waitpacket ∧ s.packet.index + 2 < 12 ∧ s.packet.b.length = 12) ∧
    (lastPair.live ∧ lastPair.state = .waitpacket ∧ lastPair.packet.index + 1 < 12 ∧ lastPair.packet.b.length = 12) ∧
    (lastByte.live ∧ lastByte.state = .waitpacket ∧ lastByte.packet.index + 1 = 12 ∧ lastByte.packet.b.length = 12 ∧
      ∀ k, k < 12 → (0x12#8 :: (Params.toList ⟨0, 2, 0, 4, 0, 0, 0, 0, 0, 0, 0x77⟩)).getD k 0 =
        if k = 11 then (0xFF77#16).extractLsb' 0 8 else lastByte.packet.b.getD k 0) ∧
    (lastPair.packet.index + 2 = 12 ∧
      ∀ k, k < 12 → (0x30#8 :: (Params.toList ⟨0x26, 0, 0, 0x96, 0, 0, 0, 0, 0, 1, 0⟩)).getD k 0 =
        if k = 10 then (0x0001#16).extractLsb' 0 8 else if k = 11 then (0x0001#16).extractLsb' 8 8
        else lastPair.packet.b.getD k 0) :=
  ⟨⟨{ waiting with packet := ⟨List.replicate 12 0, 9⟩ }, by decide, rfl, by decide, rfl⟩, by decide, by decide, by decide⟩

/-- In the receive phase of a SET_MODE with eight words. -/
def longBlock : State := { receiving 0 with pio := ⟨[], 0, 8, .processSetMode⟩ }

theorem witness_SixWritesAreThePacket :
    (waiting.awaiting ∧ waiting.packet.b.length = 12 ∧
      ∃ t, exec (decodePacket 0x00 (pars 0 0 0 0)) waiting = .next t ∧ t.live) ∧
    (¬ (longBlock.awaiting) ∧ ∃ t, t.live ∧ t.pio.cursor = 6 ∧ execAll [.wData 2 0, .wData 2 0, .wData 2 0, .wData 2 0, .wData 2 0,
      .wData 2 0] longBlock = .next t) ∧
    (idle.live ∧ idle.state ≠ .waitpacket ∧ idle.state ≠ .pioGetData) :=
  ⟨⟨by decide, rfl, _, rfl, by decide⟩, ⟨by decide, _, by decide, by decide, rfl⟩, by decide⟩

theorem witness_ReceivedWordIsStored :
    ((receiving 0).live ∧ (receiving 0).state = .pioGetData ∧ (receiving 0).pio.cursor + 1 < (receiving 0).pio.size ∧
      Memory.wf (receiving 0).pio.data) ∧
    ((receiving 1).live ∧ (receiving 1).pio.cursor + 1 = (receiving 1).pio.size ∧ (receiving 1).pio.nextState = .processSetMode ∧
      Memory.wf (receiving 1).pio.data ∧ (receiving 1).hwInfo.length = 32 ∧
      (receiving 1).setMode.offset.toNat + (receiving 1).setMode.length.toNat ≤ 32) ∧
    (28 + 4 ≤ 32 ∧ 32 < { receiving 1 with setMode := ⟨29, 4⟩ }.setMode.offset.toNat + 4) := by decide

theorem witness_BuffersKeepTheirContracts :
    65536 < 65537 ∧ (pulling 0).dma.cursor ≤ (pulling 0).dma.size ∧ 8 ≤ (pulling 0).dma.size - (pulling 0).dma.cursor ∧
    (pulling 0).dma.size - (pulling 0).dma.cursor < 9 := by decide

theorem witness_NopOnlySignals :
    writesCommand 0x00#8 .nop ∧ writesCommand 0x00#8 (.wCommand 1 0xFF00) ∧ idle.quiescent ∧ idle.bsy = false ∧ idle.drdy = true ∧
    idle.drq = false := ⟨.inl rfl, .inr ⟨0xFF00, by decide, rfl⟩, by decide, by decide, by decide, by decide⟩

theorem witness_SoftResetFromEveryState :
    ((pulling 0).live ∧ writesCommand 0x08#8 .softReset) ∧
    (idle.live ∧ writesCommand 0x90#8 (.wCommand 1 0x90) ∧ idle.state = .waitcmd) :=
  ⟨⟨by decide, .inl rfl⟩, by decide, .inr ⟨0x90, by decide, rfl⟩, rfl⟩

theorem witness_SpiPacketOpensThePacketPhase : writesCommand 0xA0#8 .spiPacket ∧ idle.quiescent := ⟨.inl rfl, by decide⟩

theorem witness_IdentifyOpensTheBlock :
    writesCommand 0xA1#8 .identifyDevice ∧ writesCommand 0xEC#8 .identify ∧ idle.quiescent ∧ idle.cfg.identifyBlock.length = 80 :=
  ⟨.inl rfl, .inl rfl, by decide, by decide⟩

theorem witness_SetFeaturesRecordsTheMode :
    writesCommand 0xEF#8 .setFeatures ∧ idle.quiescent ∧
    (∃ s : State, s.quiescent ∧ s.features.toNat = 3 ∧ s.sectCount.toNat / 8 = 0 ∧ s.sectCount.toNat < 2) ∧
    (∃ s : State, s.quiescent ∧ s.features.toNat = 3 ∧ s.sectCount.toNat / 8 = 0 ∧ ¬ s.sectCount.toNat < 2) :=
  ⟨.inl rfl, by decide, ⟨{ idle with features := 3, sectCount := 1 }, by decide, by decide, by decide, by decide⟩,
    ⟨{ idle with features := 3, sectCount := 2 }, by decide, by decide, by decide, by decide⟩⟩

theorem witness_UnknownCommandFails : 0x20#8 ∉ ataCodes ∧ writesCommand 0x20#8 (.ataUnknown 0x20) ∧ idle.quiescent :=
  ⟨by decide, .inl rfl, by decide⟩

theorem witness_TestUnitWithADisc : waiting.awaiting ∧ waiting.ready := by decide

/-- A disc that answers no TOC. -/
def waitingNoToc : State := { waiting with answers := { disc [] with toc := none } }

theorem lacks_waitingNoToc : waitingNoToc.lacksToc := ⟨rfl, fun _ h => nomatch h⟩

theorem witness_NotReadyAndMediumErrors :
    (waitingEmpty.awaiting ∧ waitingEmpty.answers.present = false ∧ 0x22#8 ∈ [0x00#8, 0x14#8, 0x15#8, 0x20#8, 0x21#8, 0x22#8]) ∧
    ({ waiting with trayOpen := true }.awaiting ∧ 0x31#8 ∈ [0x30#8, 0x31#8] ∧
      (sectorSize waiting.cfg (readOne2.b1.extractLsb' 1 7)).isSome = true) ∧
    (waitingNoToc.awaiting ∧ waitingNoToc.ready ∧ waitingNoToc.lacksToc ∧ paramType playRange = 1) :=
  ⟨by decide, by decide, by decide, by decide, lacks_waitingNoToc, by decide⟩

theorem witness_ReqStatReportsTheDrive :
    (waitingEmpty.awaiting ∧ ¬ waitingEmpty.ready) ∧ (waitingNoToc.awaiting ∧ waitingNoToc.ready ∧ waitingNoToc.lacksToc) ∧
    (waiting.awaiting ∧ waiting.ready ∧ waiting.hasToc tocA) ∧
    ((playing waiting 1003 0).awaiting ∧ (playing waiting 1003 0).ready ∧ (playing waiting 1003 0).hasToc tocA) :=
  ⟨by decide, ⟨by decide, by decide, lacks_waitingNoToc⟩, by decide, by decide⟩

/-- R105 at the boundaries of the two tracks and of the lead-out. -/
theorem witness_TrackUnderAFrame :
    tocValid tocA = true ∧ trackAt tocA 149 = none ∧ trackAt tocA 150 = some (1, ⟨150, 4, 1⟩) ∧
    trackAt tocA 999 = some (1, ⟨150, 4, 1⟩) ∧ trackAt tocA 1000 = some (2, ⟨1000, 0, 1⟩) ∧
    trackAt tocA 4999 = some (2, ⟨1000, 0, 1⟩) ∧ trackAt tocA 5000 = none := by decide

theorem witness_ReqModeSendsTheBlock : waiting.awaiting ∧ waiting.hwInfo.length = 32 := by decide

theorem witness_SetModeOpensTheReceivePhase :
    waiting.awaiting ∧ waiting.hwInfo.length = 32 ∧ (pars 0 0 0 1).b4 ≠ 0 ∧
    ((pars 0 32 0 0).b4 = 0 ∧ (pars 0 32 0 0).b2.toNat ≤ 32) ∧ ((pars 0 33 0 0).b4 = 0 ∧ 32 < (pars 0 33 0 0).b2.toNat) := by decide

theorem witness_ReqErrorCollectsTheError : waitingError.awaiting := by decide

theorem witness_TocBytesLayout :
    tocValid tocA = true ∧ trackEntry tocA 1 = some ⟨150, 4, 1⟩ ∧ trackEntry tocA tocA.lastTrack.toNat = some ⟨1000, 0, 1⟩ ∧
    tocA.lastTrack.toNat < 3 := by decide

theorem witness_GetTocSendsTheToc : waiting.awaiting ∧ waiting.ready ∧ waiting.hasToc tocA := by decide

theorem witness_ReqSesReportsTheSession :
    waiting.awaiting ∧ waiting.ready ∧ waiting.hasToc tocA ∧
    ((pars 0 0 0 6).b2 = 0 ∧ (1#8).toNat = tocA.sessions.length % 256) ∧
    ((pars 0 1 0 6).b2 ≠ 0 ∧ tocA.sessions[(pars 0 1 0 6).b2.toNat - 1]? = some ⟨1, 150⟩) ∧
    tocA.sessions.length < (pars 0 2 0 6).b2.toNat := by decide

theorem witness_GetScdReportsThePosition :
    waiting.awaiting ∧ (pars 0 0 0 14).b1.toNat % 16 ≠ 1 ∧ (pars 0xF1 0 0 14).b1.toNat % 16 = 1 ∧
    (waitingEmpty.awaiting ∧ ¬ waitingEmpty.ready) ∧ (waitingNoToc.awaiting ∧ waitingNoToc.ready ∧ waitingNoToc.lacksToc) ∧
    (waiting.ready ∧ waiting.hasToc tocA) :=
  ⟨by decide, by decide, by decide, by decide, ⟨by decide, by decide, lacks_waitingNoToc⟩, by decide⟩

theorem witness_UnrecognizedOpcodeFails : waiting.awaiting := by decide

theorem witness_CdOpenStopsEverything : (playing waiting 1003 0).awaiting := by decide

/-- CD_PLAY's parameters for the whole disc, 150 to 5000. -/
def playAll : Params := ⟨1, 0, 0, 0x96, 0, 0, 0, 0, 0x13, 0x88, 0⟩

theorem witness_CdPlayStartsTheRange :
    waiting.awaiting ∧ waiting.ready ∧ waiting.hasToc tocA ∧ paramType playAll = 1 ∧
    tocA.tracks = ⟨150, 4, 1⟩ :: [⟨1000, 0, 1⟩] ∧ (150#24).toNat ≤ targetAddress playAll ∧
    targetAddress playAll ≤ endAddress playAll ∧ endAddress playAll ≤ tocA.leadout.fad.toNat := by decide

/-- Awaiting a packet, paused at a frame of 1000 to 1010. -/
def paused (current : Fad) : State := { waiting with cdda := ⟨.paused, 0, current, 1010, 1000, .none⟩ }

theorem witness_ResumeOnlyFromPaused :
    ((paused 1010).awaiting ∧ (paused 1010).ready ∧ paramType (pars 7 0 0 0) = 7) ∧
    ((paused 1010).cdda.status = .paused ∧ (paused 1010).cdda.start.toNat ≤ (paused 1010).cdda.current.toNat ∧
      (paused 1010).cdda.current.toNat ≤ (paused 1010).cdda.last.toNat) ∧
    ((paused 999).awaiting ∧ (paused 999).cdda.current.toNat < (paused 999).cdda.start.toNat) ∧
    (waiting.ready ∧ waiting.cdda.status ≠ .paused) := by decide

theorem witness_SeekMovesTheFrame :
    ((playing waiting 1003 0).awaiting ∧ (playing waiting 1003 0).ready ∧ paramType (pars 1 0 3 0xF2) = 1 ∧
      (playing waiting 1003 0).cdda.start.toNat ≤ targetAddress (pars 1 0 3 0xF2) ∧
      targetAddress (pars 1 0 3 0xF2) ≤ (playing waiting 1003 0).cdda.last.toNat ∧ (playing waiting 1003 0).cdda.scan = .none) ∧
    (waiting.awaiting ∧ waiting.cdda.status = .noInfo ∧ paramType (pars 2 0 3 0xF2) = 2) ∧
    (paused 1003).cdda.status = .paused ∧ (paramType (pars 4 0 0 0) = 4 ∧ waiting.cdda.status ≠ .playing) := by decide

theorem witness_ScanPlaysFromTheTarget :
    (paused 1003).awaiting ∧ (paused 1003).ready ∧ paramType (pars 9 0 3 0xE8) = 1 ∧
    (paused 1003).cdda.start.toNat ≤ targetAddress (pars 9 0 3 0xE8) ∧
    targetAddress (pars 1 0 3 0xF2) ≤ (paused 1003).cdda.last.toNat := by decide

theorem witness_PositioningRejectsBadFields :
    (waiting.awaiting ∧ waiting.ready) ∧ paramType (pars 4 0 0 0) ∉ [1, 2, 7] ∧ paramType (pars 7 0 0 0) ∉ [1, 2, 4] ∧
    paramType (pars 0 0 0 0) ∉ [1, 2] ∧
    ((playing waiting 1003 0).cdda.status = .playing ∧ targetAddress (pars 1 0 3 0xE7) < (playing waiting 1003 0).cdda.start.toNat) ∧
    ((paused 1003).ready ∧ (paused 1003).cdda.last.toNat < targetAddress (pars 1 0 3 0xF3)) ∧
    (waiting.hasToc tocA ∧ tocA.tracks = ⟨150, 4, 1⟩ :: [⟨1000, 0, 1⟩] ∧ targetAddress { playAll with b4 := 0x95 } < (150#24).toNat ∧
      tocA.leadout.fad.toNat < endAddress { playAll with b10 := 0x89 }) := by decide

theorem witness_SectorReadsThatDoNotStart :
    (waiting.awaiting ∧ readsSectors (.cdRead { readOne with b1 := 0x26 }) 0x30 { readOne with b1 := 0x26 } 1 ∧
      sectorSize waiting.cfg ({ readOne with b1 := 0x26 }.b1.extractLsb' 1 7) = none) ∧
    (readsSectors (.cdRead2 readOne2) 0x31 readOne2 1 ∧ sectorSize waiting.cfg (readOne2.b1.extractLsb' 1 7) = some 4 ∧
      waiting.ready ∧ waiting.dmaEnable = false ∧ { waiting with byteCount := 1 }.byteCount.toNat < 2) ∧
    readsSectors (.cdRead { readOne with b10 := 0 }) 0x30 { readOne with b10 := 0 } 0 :=
  ⟨⟨by decide, .inl ⟨rfl, rfl, rfl⟩, by decide⟩, ⟨.inr ⟨rfl, rfl, rfl⟩, by decide, by decide, rfl, by decide⟩,
    .inl ⟨rfl, rfl, rfl⟩⟩

theorem witness_MandatorySectorSizes :
    0x78 ≤ (0x78#7).toNat ∧ (0x7E#7).toNat ≤ 0x7E ∧ sectorSize config 0x10 = some 4 ∧ State.reset.cfg.sectorEntries = [] ∧
    (sectorSize State.reset.cfg 0x15).isSome = true := by decide

theorem witness_DmaReadFetchesTheFirstBatch :
    { waitingRead with dmaEnable := true }.awaiting ∧ { waitingRead with dmaEnable := true }.ready ∧
    readsSectors (.cdRead readOne) 0x30 readOne 1 ∧ sectorSize waitingRead.cfg (readOne.b1.extractLsb' 1 7) = some 4 ∧
    (waitingRead.answers.sectors = some [1, 2, 3, 4] ∧ [1, 2, 3, 4].length = min 16 1 * 4) ∧
    (∀ sectors, waiting.answers.sectors = some sectors → sectors.length ≠ min 16 1 * 4) := by
  refine ⟨by decide, by decide, .inl ⟨rfl, rfl, rfl⟩, by decide, ⟨rfl, rfl⟩, ?_⟩
  intro sectors h
  cases h
  decide

theorem witness_PioReadOffersTheFirstChunk :
    waitingRead.awaiting ∧ waitingRead.ready ∧ waitingRead.dmaEnable = false ∧ readsSectors (.cdRead2 readOne2) 0x31 readOne2 1 ∧
    sectorSize waitingRead.cfg (readOne2.b1.extractLsb' 1 7) = some 4 ∧ 2 ≤ waitingRead.byteCount.toNat ∧
    waitingRead.answers.sectors = some [1, 2, 3, 4] ∧ [1, 2, 3, 4].length = min 16 1 * 4 :=
  ⟨by decide, by decide, rfl, .inr ⟨rfl, rfl, rfl⟩, by decide, by decide, rfl, rfl⟩

theorem witness_DmaAvailTellsTheUnreadBytes :
    (pulling 0).live ∧ (pulling 0).state = .readsectorDma ∧ idle.live ∧ idle.state ≠ .readsectorDma := by decide

theorem witness_DmaPullMovesOn :
    ((pulling 1).live ∧ (pulling 1).state = .readsectorDma ∧ (pulling 1).dma.cursor < (pulling 1).dma.size) ∧
    ([1, 2].length = 2 ∧ ∀ j, j < 2 → [1#8, 2#8].getD j 0 = Memory.read (pulling 1).dma.data ((pulling 1).dma.cursor + j)) ∧
    7 < (pulling 1).dma.size - (pulling 1).dma.cursor ∧
    (8 = (pulling 0).dma.size - (pulling 0).dma.cursor ∧ (pulling 0).readParams.remaining = 0) ∧
    (0 < (pulling 1).readParams.remaining ∧ sectorSize (pulling 1).cfg (pulling 1).readParams.sectorType = some 4 ∧
      { pulling 1 with answers := disc [9, 9, 9, 9] }.answers.sectors = some [9, 9, 9, 9]) ∧
    (∀ sectors, (pulling 1).answers.sectors = some sectors → sectors.length ≠ min 16 1 * 4) := by
  refine ⟨by decide, by decide, by decide, by decide, by decide, ?_⟩
  intro sectors h
  cases h
  decide

/-- Rows of R313 at their boundary frames: before the last, at the last with and without repeats, and the reverse ones. -/
theorem witness_AdvanceFollowsTheTable :
    ((playing idle 1008 0).live ∧ (playing idle 1008 0).cdda.start.toNat ≤ 1008 ∧ 1008 + 1 < (playing idle 1008 0).cdda.last.toNat) ∧
    ((playing idle 1009 1).cdda.last.toNat ≤ 1009 + 1 ∧ 0 < (playing idle 1009 1).cdda.repeats.toNat) ∧
    ((playing idle 1010 0).cdda.last.toNat ≤ 1010 + 1 ∧ (playing idle 1010 0).cdda.repeats.toNat = 0) ∧
    (playing idle 1002 0).cdda.start.toNat + 1 < 1002 ∧ 1001 ≤ (playing idle 1001 0).cdda.start.toNat + 1 ∧
    idle.cdda.status ≠ .playing := by decide

theorem witness_PlayingRunsToItsEnd :
    (playing idle 1000 0).live ∧ (playing idle 1000 0).cdda.status = .playing ∧ (playing idle 1000 0).cdda.scan = .none ∧
    (playing idle 1000 0).cdda.repeats = 0 ∧
    (playing idle 1000 0).cdda.start.toNat ≤ (playing idle 1000 0).cdda.current.toNat ∧
    (playing idle 1000 0).cdda.current.toNat < (playing idle 1000 0).cdda.last.toNat ∧
    10 ≤ (playing idle 1000 0).cdda.last.toNat - (playing idle 1000 0).cdda.current.toNat := by decide

theorem witness_TrayCloseRefreshesTheDrive :
    idle.live ∧ idle.trayOpen = false ∧ { idle with trayOpen := true }.trayOpen = true := by decide

end Sys2Proof.Tests
end

section
/-! SUPPORT. What a step does with the oldest input (R10, R110), and that the configuration and the queue stand outside `S` (R7,
R52): one lemma per procedure, in the order of the model's definitions, from the shared operations up to `exec`. -/

namespace Sys2Proof.Machine

open Sys2Proof

/-! ## A step -/

/-- Nothing waits: nothing happens (R10). -/
theorem step_of_inbox_nil (s : State) (h : s.inbox = []) : step s = .next s := by
  simp only [step, h]

/-- The oldest record is an operation: it is applied. -/
theorem step_of_decode_ok (s : State) (x : Input) (rest : List Input) (i : Instr) (h : s.inbox = x :: rest)
    (hi : decode x.record = .ok i) : step s = exec i (takeInput x rest s) := by
  simp only [step, h, hi]

/-- The oldest record is no operation: the step refuses it. -/
theorem step_of_decode_error (s : State) (x : Input) (rest : List Input) (e : DecodeError) (h : s.inbox = x :: rest)
    (he : decode x.record = .error e) : step s = .refused (.malformedRecord e) := by
  simp only [step, h, he]

/-! ## What stands outside `S`: the states with one configuration and one queue -/

/-- `t` has the configuration and the waiting operations of `s` (R52). A record update of other fields has them by
computation, so a proof of `SameConfig s u` serves for every such update of `u`. -/
def SameConfig (s t : State) : Prop := t.cfg = s.cfg ∧ t.inbox = s.inbox

/-- What a procedure gives, if it is applied, has the configuration and the queue of `s`. -/
def OkKeepsConfig (s : State) (r : Except Halt State) : Prop := ∀ t, r = .ok t → SameConfig s t

/-- A procedure changes neither the configuration nor the queue. -/
def KeepsConfig (k : Act) : Prop := ∀ ⦃s u⦄, SameConfig s u → OkKeepsConfig s (k u)

/-- The next state of an outcome, if there is one, has the configuration and the queue of `s`. -/
def NextKeepsConfig (s : State) (r : Result) : Prop := ∀ t, r = .next t → SameConfig s t

theorem SameConfig.refl (s : State) : SameConfig s s := ⟨rfl, rfl⟩

section KeepsConfig

variable {s u : State}

theorem okKeepsConfig_ok (h : SameConfig s u) : OkKeepsConfig s (.ok u) := by
  rintro _ ⟨⟩
  exact h

theorem okKeepsConfig_error (e : Halt) : OkKeepsConfig s (.error e) := by
  rintro _ ⟨⟩

theorem nextKeepsConfig_next (h : SameConfig s u) : NextKeepsConfig s (.next u) := by
  rintro _ ⟨⟩
  exact h

/-! ### The shared operations -/

theorem recordHalt_sameConfig (e : Halt) (h : SameConfig s u) : SameConfig s (recordHalt e u) := by
  rcases recordHalt_cases e u with ⟨r, -, eq⟩ | ⟨r, -, eq⟩ <;> (rw [eq]; exact h)

theorem discReady_sameConfig (h : SameConfig s u) : SameConfig s (discReady u).2 := by
  rcases discReady_cases u with ⟨-, e⟩ | ⟨-, e⟩ <;> (rw [e]; exact h)

theorem cachedToc_sameConfig (h : SameConfig s u) : SameConfig s (cachedToc u).2 := by
  rcases cachedToc_cases u with ⟨t, -, e⟩ | ⟨-, t, -, -, e⟩ | ⟨-, -, e⟩ <;> (rw [e]; exact h)

theorem tocIfReady_sameConfig (h : SameConfig s u) : SameConfig s (tocIfReady u).2 := by
  rcases tocIfReady_cases u with ⟨-, e⟩ | ⟨-, e⟩
  · rw [e]; exact cachedToc_sameConfig (discReady_sameConfig h)
  · rw [e]; exact discReady_sameConfig h

theorem unitRefresh_sameConfig (h : SameConfig s u) : SameConfig s (unitRefresh u) := by
  rcases unitRefresh_cases u with ⟨-, e⟩ | ⟨-, e⟩ <;> (rw [e]; exact h)

theorem unitFromCdda_sameConfig (h : SameConfig s u) : SameConfig s (unitFromCdda u) := by
  unfold unitFromCdda
  split <;> exact h

theorem readFail_sameConfig (h : SameConfig s u) : SameConfig s (readFail u) := by
  unfold readFail
  split <;> exact discReady_sameConfig h

theorem pioFill_sameConfig {n : Nat} {t : State} (h : SameConfig s u) (e : pioFill n u = .ok t) : SameConfig s t := by
  rcases pioFill_cases n u with ⟨-, e'⟩ | ⟨-, e'⟩
  · rw [e'] at e; cases e; exact h
  · cases e'.symm.trans e

theorem pioWrite_sameConfig {v : Half} {t : State} (h : SameConfig s u) (e : pioWrite v u = .ok t) : SameConfig s t := by
  rcases pioWrite_cases v u with ⟨-, e'⟩ | ⟨-, e'⟩
  · rw [e'] at e; cases e; exact h
  · cases e'.symm.trans e

theorem pioRead_sameConfig {v : Half} {t : State} (h : SameConfig s u) (e : pioRead u = .ok (v, t)) : SameConfig s t := by
  rcases pioRead_cases u with ⟨-, e'⟩ | ⟨-, e'⟩
  · rw [e'] at e; cases e; exact h
  · cases e'.symm.trans e

theorem dmaRead_sameConfig {n : Nat} {bytes : List Byte} {t : State} (h : SameConfig s u)
    (e : dmaRead n u = .ok (bytes, t)) : SameConfig s t := by
  rcases dmaRead_cases n u with ⟨-, e'⟩ | ⟨-, e'⟩
  · rw [e'] at e; cases e; exact h
  · cases e'.symm.trans e

theorem dmaFill_sameConfig {ok : Bool} {t : State} (h : SameConfig s u) (e : dmaFill u = .ok (ok, t)) : SameConfig s t := by
  rcases dmaFill_cases u with ⟨-, e'⟩ | ⟨-, -, e'⟩ | ⟨-, size, bytes, -, -, -, e'⟩ | ⟨-, size, -, -, e'⟩
  · cases e'.symm.trans e
  · cases e'.symm.trans e
  · rw [e'] at e; cases e; exact h
  · rw [e'] at e; cases e; exact h

theorem needReady_keepsConfig {k : Act} (hk : KeepsConfig k) : KeepsConfig (needReady k) := by
  intro s u h
  rcases needReady_cases k u with ⟨-, e⟩ | ⟨-, e⟩
  · rw [e]; exact hk (discReady_sameConfig h)
  · rw [e]; exact okKeepsConfig_ok (discReady_sameConfig h)

theorem needToc_keepsConfig {k : Toc → Act} (hk : ∀ t, KeepsConfig (k t)) : KeepsConfig (needToc k) := by
  intro s u h
  rcases needToc_cases k u with ⟨t, -, e⟩ | ⟨-, e⟩
  · rw [e]; exact hk t (cachedToc_sameConfig h)
  · rw [e]; exact okKeepsConfig_ok (cachedToc_sameConfig h)

theorem pioRespond_keepsConfig (bytes : List Byte) (next : GdState) : KeepsConfig (pioRespond bytes next) := by
  intro s u h
  rcases pioRespond_cases bytes next u with ⟨-, e⟩ | ⟨-, -, e⟩ | ⟨-, e⟩
  · rw [e]; exact okKeepsConfig_ok h
  · rw [e]; exact okKeepsConfig_ok h
  · rw [e]; exact okKeepsConfig_error _

theorem pioReceive_keepsConfig (n : Nat) (next : GdState) {k : Act} (hk : KeepsConfig k) :
    KeepsConfig (pioReceive n next k) := by
  intro s u h
  unfold pioReceive
  split
  · exact okKeepsConfig_error _
  next v hfill =>
    have hv := pioFill_sameConfig h hfill
    dsimp only
    split
    · exact hk hv
    · exact okKeepsConfig_ok hv

/-! ### The packet handlers -/

theorem spiTestUnit_keepsConfig (p : Params) : KeepsConfig (spiTestUnit p) :=
  needReady_keepsConfig fun _ _ h => okKeepsConfig_ok h

theorem spiReqStat_keepsConfig (p : Params) : KeepsConfig (spiReqStat p) :=
  fun _ _ h => pioRespond_keepsConfig _ _ (tocIfReady_sameConfig h)

theorem spiReqMode_keepsConfig (p : Params) : KeepsConfig (spiReqMode p) :=
  fun _ _ h => pioRespond_keepsConfig _ _ h

theorem enterProcessSetMode_keepsConfig : KeepsConfig enterProcessSetMode := by
  intro s u h
  unfold enterProcessSetMode
  dsimp only
  split <;> exact okKeepsConfig_ok h

theorem spiSetMode_keepsConfig (p : Params) : KeepsConfig (spiSetMode p) :=
  fun _ _ h => pioReceive_keepsConfig _ _ enterProcessSetMode_keepsConfig h

theorem spiReqError_keepsConfig (p : Params) : KeepsConfig (spiReqError p) :=
  fun _ _ h => pioRespond_keepsConfig _ _ h

theorem spiGetToc_keepsConfig (p : Params) : KeepsConfig (spiGetToc p) :=
  needReady_keepsConfig (needToc_keepsConfig fun _ => pioRespond_keepsConfig _ _)

theorem spiReqSes_keepsConfig (p : Params) : KeepsConfig (spiReqSes p) := by
  refine needReady_keepsConfig (needToc_keepsConfig fun t s u h => ?_)
  split
  · exact okKeepsConfig_ok h
  · exact pioRespond_keepsConfig _ _ h

theorem spiGetScd_keepsConfig (p : Params) : KeepsConfig (spiGetScd p) := by
  intro s u h
  unfold spiGetScd
  split
  · exact pioRespond_keepsConfig _ _ (tocIfReady_sameConfig h)
  · exact okKeepsConfig_ok h

theorem spiUnrecognizedOpcode_keepsConfig (p : Params) : KeepsConfig (spiUnrecognizedOpcode p) :=
  fun _ _ h => okKeepsConfig_ok h

theorem spiCdOpen_keepsConfig (p : Params) : KeepsConfig (spiCdOpen p) :=
  fun _ _ h => okKeepsConfig_ok h

theorem playFrom_keepsConfig (p : Params) : KeepsConfig (playFrom p) := by
  refine needToc_keepsConfig fun t s u h => ?_
  split <;> exact okKeepsConfig_ok h

theorem resume_keepsConfig : KeepsConfig resume := by
  intro s u h
  unfold resume
  split
  · split <;> exact okKeepsConfig_ok h
  · exact okKeepsConfig_ok h

theorem spiCdPlay_keepsConfig (p : Params) : KeepsConfig (spiCdPlay p) := by
  refine needReady_keepsConfig fun s u h => ?_
  split
  · exact playFrom_keepsConfig p h
  · exact playFrom_keepsConfig p h
  · exact resume_keepsConfig h
  · exact okKeepsConfig_ok h

theorem seekTo_keepsConfig (p : Params) : KeepsConfig (seekTo p) := by
  intro s u h
  unfold seekTo
  split
  · exact okKeepsConfig_ok h
  · exact okKeepsConfig_ok (u := spiDone _) (unitFromCdda_sameConfig (u := State.putStatus _ _ _) h)

theorem pause_keepsConfig : KeepsConfig pause := by
  intro s u h
  unfold pause
  split <;> exact okKeepsConfig_ok h

theorem spiCdSeek_keepsConfig (p : Params) : KeepsConfig (spiCdSeek p) := by
  refine needReady_keepsConfig fun s u h => ?_
  split
  · exact seekTo_keepsConfig p h
  · exact seekTo_keepsConfig p h
  · exact pause_keepsConfig h
  · exact okKeepsConfig_ok h

theorem scanFrom_keepsConfig (p : Params) : KeepsConfig (scanFrom p) := by
  intro s u h
  unfold scanFrom
  split <;> exact okKeepsConfig_ok h

theorem spiCdScan_keepsConfig (p : Params) : KeepsConfig (spiCdScan p) := by
  refine needReady_keepsConfig fun s u h => ?_
  split
  · exact scanFrom_keepsConfig p h
  · exact scanFrom_keepsConfig p h
  · exact okKeepsConfig_ok h

theorem offerChunk_keepsConfig : KeepsConfig offerChunk := by
  intro s u h
  unfold offerChunk
  split
  · exact okKeepsConfig_error _
  next bytes v hread =>
    split
    · exact okKeepsConfig_error _
    next w hfill =>
      have hw : SameConfig s w := pioFill_sameConfig (dmaRead_sameConfig h hread) hfill
      exact okKeepsConfig_ok hw

theorem dmaService_keepsConfig : KeepsConfig dmaService := by
  intro s u h
  unfold dmaService
  split
  · split
    · exact okKeepsConfig_ok h
    · split
      · exact okKeepsConfig_error _
      next v hfill => exact okKeepsConfig_ok (readFail_sameConfig (dmaFill_sameConfig h hfill))
      next v hfill => exact okKeepsConfig_ok (dmaFill_sameConfig h hfill)
  · exact okKeepsConfig_ok h

theorem enterReadsectorDma_keepsConfig : KeepsConfig enterReadsectorDma :=
  fun _ _ h => dmaService_keepsConfig h

theorem enterReadsectorPio_keepsConfig : KeepsConfig enterReadsectorPio := by
  intro s u h
  -- the engine's lemmas are about the state that has entered, not about `u`
  replace h : SameConfig s ({ u with state := .readsectorPio }.putStatus bsyBit true) := h
  unfold enterReadsectorPio
  dsimp only
  split
  · split
    · exact okKeepsConfig_ok h
    · split
      · exact okKeepsConfig_error _
      next v hfill => exact okKeepsConfig_ok (readFail_sameConfig (dmaFill_sameConfig h hfill))
      next v hfill => exact offerChunk_keepsConfig (dmaFill_sameConfig h hfill)
  · exact offerChunk_keepsConfig h

theorem readStart_keepsConfig (p : Params) (count : Nat) : KeepsConfig (readStart p count) := by
  intro s u h
  unfold readStart
  split
  · exact okKeepsConfig_error _
  · refine needReady_keepsConfig (fun s u h => ?_) h
    split
    · exact okKeepsConfig_error _
    · dsimp only
      split
      · exact enterReadsectorDma_keepsConfig h
      · exact enterReadsectorPio_keepsConfig h

theorem spiCdRead_keepsConfig (p : Params) : KeepsConfig (spiCdRead p) := readStart_keepsConfig p _

theorem spiCdRead2_keepsConfig (p : Params) : KeepsConfig (spiCdRead2 p) := readStart_keepsConfig p _

theorem spiHandler_keepsConfig (opcode : Byte) (p : Params) : KeepsConfig (spiHandler opcode p) := by
  unfold spiHandler
  cases spiOp opcode with
  | testUnit => exact spiTestUnit_keepsConfig p
  | reqStat => exact spiReqStat_keepsConfig p
  | reqMode => exact spiReqMode_keepsConfig p
  | setMode => exact spiSetMode_keepsConfig p
  | reqError => exact spiReqError_keepsConfig p
  | getToc => exact spiGetToc_keepsConfig p
  | reqSes => exact spiReqSes_keepsConfig p
  | cdOpen => exact spiCdOpen_keepsConfig p
  | cdPlay => exact spiCdPlay_keepsConfig p
  | cdSeek => exact spiCdSeek_keepsConfig p
  | cdScan => exact spiCdScan_keepsConfig p
  | cdRead => exact spiCdRead_keepsConfig p
  | cdRead2 => exact spiCdRead2_keepsConfig p
  | getScd => exact spiGetScd_keepsConfig p
  | other => exact spiUnrecognizedOpcode_keepsConfig p

/-! ### The DATA port -/

theorem enter_keepsConfig (st : GdState) : KeepsConfig (enter st) := by
  intro s u h
  cases st with
  | waitcmd | waitpacket | pioSendData | pioGetData | pioEnd | procpacketdone => exact okKeepsConfig_ok h
  | procpacket => exact spiHandler_keepsConfig _ _ h
  | readsectorPio => exact enterReadsectorPio_keepsConfig h
  | readsectorDma => exact enterReadsectorDma_keepsConfig h
  | processSetMode => exact enterProcessSetMode_keepsConfig h

theorem endPhaseIfDrained_keepsConfig : KeepsConfig endPhaseIfDrained := by
  intro s u h
  unfold endPhaseIfDrained
  split
  · exact enter_keepsConfig _ h
  · exact okKeepsConfig_ok h

theorem hostReadData_keepsConfig (n : Nat) : KeepsConfig (hostReadData n) := by
  intro s u h
  unfold hostReadData
  split
  · exact okKeepsConfig_error _
  · split
    · exact okKeepsConfig_error _
    · split
      · exact okKeepsConfig_error _
      next v w hread =>
        have hw : SameConfig s w := pioRead_sameConfig h hread
        exact endPhaseIfDrained_keepsConfig hw

theorem collectPacket_keepsConfig (n : Nat) (v : Half) : KeepsConfig (collectPacket n v) := by
  intro s u h
  unfold collectPacket
  dsimp only
  split
  · exact okKeepsConfig_error _
  · split
    · exact enter_keepsConfig .procpacket h
    · exact okKeepsConfig_ok h

theorem hostWriteData_keepsConfig (n : Nat) (v : Half) : KeepsConfig (hostWriteData n v) := by
  intro s u h
  unfold hostWriteData
  split
  · exact okKeepsConfig_error _
  · split
    · exact collectPacket_keepsConfig n v h
    · split
      · split
        · split
          · exact okKeepsConfig_error _
          next w hwrite => exact endPhaseIfDrained_keepsConfig (pioWrite_sameConfig h hwrite)
        · exact okKeepsConfig_error _
      · exact okKeepsConfig_error _

theorem writeWords_sameConfig (ws : List Half) (h : SameConfig s u) : SameConfig s (writeWords ws u) := by
  induction ws generalizing u with
  | nil => exact h
  | cons v rest ih =>
    unfold writeWords
    split
    next w hw => exact ih (hostWriteData_keepsConfig 2 v h w hw)
    next e _ => exact recordHalt_sameConfig e h

/-! ### The ATA commands -/

theorem ataNop_keepsConfig : KeepsConfig ataNop := fun _ _ h => okKeepsConfig_ok h

theorem softResetState_sameConfig (h : SameConfig s u) : SameConfig s (softResetState u) :=
  unitRefresh_sameConfig (u := State.dropToc _) h

theorem ataSoftReset_keepsConfig : KeepsConfig ataSoftReset :=
  fun _ _ h => okKeepsConfig_ok (u := raiseIrq _ _) (softResetState_sameConfig h)

theorem ataExecDiag_keepsConfig : KeepsConfig ataExecDiag := ataSoftReset_keepsConfig

theorem ataSpiPacket_keepsConfig : KeepsConfig ataSpiPacket := fun _ _ h => okKeepsConfig_ok h

theorem ataIdentifyDevice_keepsConfig : KeepsConfig ataIdentifyDevice :=
  fun _ _ h => pioRespond_keepsConfig _ _ h

theorem ataIdentify_keepsConfig : KeepsConfig ataIdentify := ataIdentifyDevice_keepsConfig

theorem ataSetFeatures_keepsConfig : KeepsConfig ataSetFeatures := by
  intro s u h
  unfold ataSetFeatures
  split <;> exact okKeepsConfig_ok h

theorem ataUnknownCode_keepsConfig : KeepsConfig ataUnknownCode := fun _ _ h => okKeepsConfig_ok h

theorem ataHandler_keepsConfig (code : Byte) : KeepsConfig (ataHandler code) := by
  unfold ataHandler
  cases ataOp code with
  | nop => exact ataNop_keepsConfig
  | softReset => exact ataSoftReset_keepsConfig
  | execDiag => exact ataExecDiag_keepsConfig
  | spiPacket => exact ataSpiPacket_keepsConfig
  | identifyDevice => exact ataIdentifyDevice_keepsConfig
  | identify => exact ataIdentify_keepsConfig
  | setFeatures => exact ataSetFeatures_keepsConfig
  | other => exact ataUnknownCode_keepsConfig

theorem commandWrite_keepsConfig (code : Byte) {k : Act} (hk : KeepsConfig k) : KeepsConfig (commandWrite code k) := by
  intro s u h
  rcases commandWrite_cases code k u with ⟨-, -, e⟩ | ⟨-, e⟩
  · rw [e]; exact okKeepsConfig_error _
  · rw [e]; exact hk h

/-! ### The events -/

theorem advanceReverse_sameConfig (h : SameConfig s u) : SameConfig s (advanceReverse u) := by
  unfold advanceReverse
  extract_lets c cur
  split <;> exact h

theorem advanceForward_sameConfig (h : SameConfig s u) : SameConfig s (advanceForward u) := by
  unfold advanceForward
  extract_lets c cur
  split
  · split <;> exact h
  · exact h

theorem cddaStep_sameConfig (h : SameConfig s u) : SameConfig s (cddaStep u) := by
  unfold cddaStep
  split
  · split
    · exact advanceReverse_sameConfig h
    · exact advanceForward_sameConfig h
    · exact advanceForward_sameConfig h
  · exact h

theorem closeTray_sameConfig (h : SameConfig s u) : SameConfig s (closeTray u) := by
  unfold closeTray
  split
  · exact unitRefresh_sameConfig (u := State.dropToc _) h
  · exact h

theorem hardResetState_sameConfig (h : SameConfig s u) : SameConfig s (hardResetState u) :=
  unitRefresh_sameConfig (u := State.putDiscFormat _ _) h

theorem dmaPullBytes_keepsConfig (len : Nat) : KeepsConfig (dmaPullBytes len) := by
  intro s u h
  unfold dmaPullBytes
  split
  · exact okKeepsConfig_error _
  · split
    · exact okKeepsConfig_error _
    next bytes v hread =>
      have hv : SameConfig s v := dmaRead_sameConfig h hread
      exact dmaService_keepsConfig hv

/-! ### The operations -/

theorem whileLive_keepsConfig {r : Result} (h : NextKeepsConfig s r) : NextKeepsConfig s (whileLive s r) := by
  rcases whileLive_cases s r with ⟨-, e⟩ | ⟨m, -, e⟩ | ⟨-, m, -, e⟩
  · rw [e]; exact h
  · rw [e]; rintro _ ⟨⟩
  · rw [e]; rintro _ ⟨⟩

/-- A procedure that keeps the configuration makes an operation that does. -/
theorem applied_keepsConfig {k : Act} (hk : KeepsConfig k) (s : State) : NextKeepsConfig s (applied s (k s)) := by
  rcases applied_cases s (k s) with ⟨t, hr, e⟩ | ⟨f, hr, e⟩
  · rw [e]; exact nextKeepsConfig_next (hk (.refl s) t hr)
  · rw [e]; exact nextKeepsConfig_next (recordHalt_sameConfig f (.refl s))

theorem readRegister_keepsConfig (n : Nat) (v : Byte) (h : SameConfig s u) : NextKeepsConfig s (readRegister n v s u) := by
  refine whileLive_keepsConfig ?_
  split
  · exact nextKeepsConfig_next h
  · exact nextKeepsConfig_next (recordHalt_sameConfig _ (.refl s))

theorem writeRegister_keepsConfig (n : Nat) (h : SameConfig s u) : NextKeepsConfig s (writeRegister n s u) := by
  refine whileLive_keepsConfig ?_
  split
  · exact nextKeepsConfig_next h
  · exact nextKeepsConfig_next (recordHalt_sameConfig _ (.refl s))

theorem execRData_keepsConfig (n : Nat) (s : State) : NextKeepsConfig s (execRData n s) := by
  refine whileLive_keepsConfig ?_
  split
  next t ht => exact nextKeepsConfig_next (hostReadData_keepsConfig n (.refl s) t ht)
  next e _ => exact nextKeepsConfig_next (recordHalt_sameConfig e (.refl s))

theorem execDmaPull_keepsConfig (len : Nat) (s : State) : NextKeepsConfig s (execDmaPull len s) := by
  refine whileLive_keepsConfig ?_
  split
  next t ht => exact nextKeepsConfig_next (dmaPullBytes_keepsConfig len (.refl s) t ht)
  next e _ => exact nextKeepsConfig_next (recordHalt_sameConfig e (.refl s))

theorem execWCommand_keepsConfig (n : Nat) (v : Half) (s : State) : NextKeepsConfig s (execWCommand n v s) := by
  refine whileLive_keepsConfig ?_
  split
  · exact applied_keepsConfig (commandWrite_keepsConfig _ (ataHandler_keepsConfig _)) s
  · exact nextKeepsConfig_next (recordHalt_sameConfig _ (.refl s))

theorem runCommand_keepsConfig (code : Byte) {k : Act} (hk : KeepsConfig k) (s : State) :
    NextKeepsConfig s (runCommand code k s) :=
  whileLive_keepsConfig (applied_keepsConfig (commandWrite_keepsConfig code hk) s)

theorem runPacket_keepsConfig (opcode : Byte) {k : Params → Act} (p : Params) (hk : KeepsConfig (k p)) (s : State) :
    NextKeepsConfig s (runPacket opcode k p s) := by
  refine whileLive_keepsConfig ?_
  split
  · exact applied_keepsConfig (k := fun u => k p (dispatched opcode p u)) (fun _ _ h => hk h) s
  · exact nextKeepsConfig_next (writeWords_sameConfig _ (.refl s))

/-- No operation changes the configuration or the queue (R52), by the operation's constructor. -/
theorem exec_keepsConfig (i : Instr) (s : State) : NextKeepsConfig s (exec i s) := by
  have same := SameConfig.refl s
  cases i with
  | rData n => exact execRData_keepsConfig n s
  | rError n | rIntreason n | rSectnum n | rBclow n | rBchigh n | rDrivesel n | rStatus n =>
    exact readRegister_keepsConfig n _ same
  | wData n v => exact whileLive_keepsConfig (applied_keepsConfig (hostWriteData_keepsConfig n v) s)
  | wFeatures n v | wSectcount n v | wSectnum n v | wBclow n v | wBchigh n v | wDrivesel n v =>
    exact writeRegister_keepsConfig n same
  | wCommand n v => exact execWCommand_keepsConfig n v s
  | nop => exact runCommand_keepsConfig _ ataNop_keepsConfig s
  | softReset => exact runCommand_keepsConfig _ ataSoftReset_keepsConfig s
  | execDiag => exact runCommand_keepsConfig _ ataExecDiag_keepsConfig s
  | spiPacket => exact runCommand_keepsConfig _ ataSpiPacket_keepsConfig s
  | identifyDevice => exact runCommand_keepsConfig _ ataIdentifyDevice_keepsConfig s
  | identify => exact runCommand_keepsConfig _ ataIdentify_keepsConfig s
  | setFeatures => exact runCommand_keepsConfig _ ataSetFeatures_keepsConfig s
  | ataUnknown code => exact runCommand_keepsConfig code ataUnknownCode_keepsConfig s
  | testUnit p => exact runPacket_keepsConfig _ p (spiTestUnit_keepsConfig p) s
  | reqStat p => exact runPacket_keepsConfig _ p (spiReqStat_keepsConfig p) s
  | reqMode p => exact runPacket_keepsConfig _ p (spiReqMode_keepsConfig p) s
  | setMode p => exact runPacket_keepsConfig _ p (spiSetMode_keepsConfig p) s
  | reqError p => exact runPacket_keepsConfig _ p (spiReqError_keepsConfig p) s
  | getToc p => exact runPacket_keepsConfig _ p (spiGetToc_keepsConfig p) s
  | reqSes p => exact runPacket_keepsConfig _ p (spiReqSes_keepsConfig p) s
  | cdOpen p => exact runPacket_keepsConfig _ p (spiCdOpen_keepsConfig p) s
  | cdPlay p => exact runPacket_keepsConfig _ p (spiCdPlay_keepsConfig p) s
  | cdSeek p => exact runPacket_keepsConfig _ p (spiCdSeek_keepsConfig p) s
  | cdScan p => exact runPacket_keepsConfig _ p (spiCdScan_keepsConfig p) s
  | cdRead p => exact runPacket_keepsConfig _ p (spiCdRead_keepsConfig p) s
  | cdRead2 p => exact runPacket_keepsConfig _ p (spiCdRead2_keepsConfig p) s
  | getScd p => exact runPacket_keepsConfig _ p (spiGetScd_keepsConfig p) s
  | spiUnrecognized opcode p => exact runPacket_keepsConfig opcode p (spiUnrecognizedOpcode_keepsConfig p) s
  | dmaAvail => exact whileLive_keepsConfig (nextKeepsConfig_next same)
  | dmaPull len => exact execDmaPull_keepsConfig len s
  | cddaAdvance => exact whileLive_keepsConfig (nextKeepsConfig_next (cddaStep_sameConfig same))
  | trayClose => exact whileLive_keepsConfig (nextKeepsConfig_next (closeTray_sameConfig same))
  | hardReset => exact nextKeepsConfig_next (hardResetState_sameConfig same)

end KeepsConfig

end Sys2Proof.Machine
end

section
/-! SUPPORT. A packet as one operation and as its six DATA writes (R124, R166, log entry 12). -/

namespace Sys2Proof.Machine

open Sys2Proof

/-- The operation that twelve packet bytes decode to runs the handler of their opcode (R125, R126, R220). -/
theorem exec_decodePacket (opcode : Byte) (p : Params) (s : State) :
    exec (decodePacket opcode p) s = runPacket opcode (spiHandler opcode) p s := by
  have known : opcode ∈ spiOpcodes ∨ spiOp opcode = .other := by
    revert opcode
    decide
  rcases known with listed | other
  · simp only [spiOpcodes, List.mem_cons, List.not_mem_nil, or_false] at listed
    rcases listed with rfl | rfl | rfl | rfl | rfl | rfl | rfl | rfl | rfl | rfl | rfl | rfl | rfl | rfl <;> rfl
  · have handler : spiHandler opcode = spiUnrecognizedOpcode := by
      funext q
      simp only [spiHandler, other]
    have operation : decodePacket opcode p = .spiUnrecognized opcode p := by simp only [decodePacket, other]
    rw [handler, operation]
    rfl

/-- The DATA write of a word is the word's host write, applied (R166 to R168). -/
theorem exec_wData_live (v : Half) (s : State) (h : s.live) : exec (.wData 2 v) s = applied s (hostWriteData 2 v s) :=
  whileLive_live s _ h

/-- An operation that is not applied leaves a state without further meaning (R350, R351). -/
theorem recordHalt_not_live (e : Halt) (s : State) : ¬ (recordHalt e s).live := by
  rintro ⟨hm, hr⟩
  rcases recordHalt_cases e s with ⟨r, -, eq⟩ | ⟨r, -, eq⟩
  · rw [eq] at hm
    cases h : s.misuse <;> simp [h] at hm
  · rw [eq] at hr
    cases h : s.refused <;> simp [h] at hr

/-- An operation whose next state has a further meaning was applied. -/
theorem ok_of_applied_live {s t : State} {r : Except Halt State} (e : applied s r = .next t) (ht : t.live) : r = .ok t := by
  rcases applied_cases s r with ⟨u, hr, hu⟩ | ⟨f, -, hf⟩
  · cases hu.symm.trans e
    exact hr
  · cases hf.symm.trans e
    exact absurd ht (recordHalt_not_live f s)

/-- DATA writes that leave a state with a further meaning began in one. -/
theorem live_of_execAll_wData {ws : List Half} {s t : State} (e : execAll (ws.map (.wData 2)) s = .next t) (ht : t.live) :
    s.live := by
  cases ws with
  | nil =>
    cases e
    exact ht
  | cons v rest =>
    rcases whileLive_cases s (applied s (hostWriteData 2 v s)) with ⟨hl, -⟩ | ⟨r, -, hf⟩ | ⟨-, r, -, hf⟩
    · exact hl
    · simp [execAll, exec, execWData, hf] at e
    · simp [execAll, exec, execWData, hf] at e

/-- DATA writes that are all applied are the words written one after another. -/
theorem writeWords_of_execAll {ws : List Half} {s t : State} (e : execAll (ws.map (.wData 2)) s = .next t) (ht : t.live) :
    writeWords ws s = t := by
  induction ws generalizing s with
  | nil =>
    cases e
    rfl
  | cons v rest ih =>
    have hl : s.live := live_of_execAll_wData e ht
    simp only [List.map_cons, execAll, exec_wData_live v s hl] at e
    unfold writeWords
    cases hw : hostWriteData 2 v s with
    | ok u => exact ih (by simpa [hw, applied] using e)
    | error f =>
      have er : execAll (rest.map (.wData 2)) (recordHalt f s) = .next t := by simpa [hw, applied] using e
      exact absurd (live_of_execAll_wData er ht) (recordHalt_not_live f s)

/-- The accumulator after one more word: its low byte at the index, its high byte after it (R166). -/
def putWord (k : Packet) (v : Half) : Packet := { b := packetBytesAfter k.b k.index 2 v, index := k.index + 2 }

/-- A word of an awaited packet goes into the accumulator, and the one that brings the twelfth byte has the packet run
(R166, R173). -/
theorem hostWriteData_collect (v : Half) (s : State) (hs : s.state = .waitpacket) (hi : s.packet.index + 2 ≤ 12) :
    hostWriteData 2 v s =
      if s.packet.index + 2 = 12 then enterProcpacket { s with packet := putWord s.packet v }
      else .ok { s with packet := putWord s.packet v } := by
  have fits : ¬ 12 < s.packet.index + 2 := by omega
  simp [hostWriteData, hs, collectPacket, packetBytes, fits, putWord]

/-- Writing the words that fill the accumulator runs the packet processor on it. -/
theorem execAll_fills {ws : List Half} {s t : State} (hl : s.live) (hs : s.state = .waitpacket) (hne : ws ≠ [])
    (hi : s.packet.index + 2 * ws.length = 12)
    (e : enterProcpacket { s with packet := ws.foldl putWord s.packet } = .ok t) :
    execAll (ws.map (.wData 2)) s = .next t := by
  induction ws generalizing s with
  | nil => exact absurd rfl hne
  | cons v rest ih =>
    simp only [List.length_cons] at hi
    simp only [List.map_cons, execAll, exec_wData_live v s hl, hostWriteData_collect v s hs (by omega)]
    cases rest with
    | nil =>
      have twelfth : s.packet.index + 2 = 12 := by simpa using hi
      have run : enterProcpacket { s with packet := putWord s.packet v } = .ok t := e
      simp only [if_pos twelfth, run, applied, List.map_nil, execAll]
    | cons w more =>
      have later : s.packet.index + 2 ≠ 12 := by
        simp only [List.length_cons] at hi
        omega
      have filled : (putWord s.packet v).index + 2 * (w :: more).length = 12 := by
        simp only [putWord]
        omega
      rw [if_neg later]
      exact ih (s := { s with packet := putWord s.packet v }) hl hs (List.cons_ne_nil _ _) filled e

/-- A word's low byte is stored first (R166). -/
theorem packetBytesAfter_word (b : List Byte) (i : Nat) (hi lo : Byte) :
    packetBytesAfter b i 2 (hi ++ lo) = (b.set i lo).set (i + 1) hi := by
  have low : (hi ++ lo : Half).extractLsb' 0 8 = lo := BitVec.extractLsb'_append_eq_right
  have high : (hi ++ lo : Half).extractLsb' 8 8 = hi := BitVec.extractLsb'_append_eq_left
  rw [packetBytesAfter, if_pos rfl, low, high]

/-- The six words of a packet fill an accumulator of twelve bytes with the packet's bytes in order (R124). -/
theorem putWords_packetWords (opcode : Byte) (p : Params) (k : Packet) (hb : k.b.length = 12) (hi : k.index = 0) :
    (packetWords opcode p).foldl putWord k = Packet.full opcode p := by
  obtain ⟨b, i⟩ := k
  subst hi
  match b, hb with
  | [_, _, _, _, _, _, _, _, _, _, _, _], _ =>
    simp [packetWords, putWord, packetBytesAfter_word, Packet.full, packetBytes, Params.toList]

/-- An awaited packet that is applied is applied by its six DATA writes. -/
theorem execAll_packetWords {opcode : Byte} {p : Params} {s t : State} (a : s.awaiting) (hb : s.packet.b.length = 12)
    (e : exec (decodePacket opcode p) s = .next t) (ht : t.live) :
    execAll ((packetWords opcode p).map (.wData 2)) s = .next t := by
  obtain ⟨live, waits, empty⟩ := a
  rw [exec_decodePacket, runPacket_awaiting _ _ _ _ ⟨live, waits, empty⟩] at e
  refine execAll_fills live waits (List.cons_ne_nil _ _) (by rw [empty]; rfl) ?_
  rw [putWords_packetWords opcode p s.packet hb empty]
  exact ok_of_applied_live e ht

/-- A packet taken where none is awaited is its words written one after another (log entry 12). -/
theorem exec_decodePacket_elsewhere (opcode : Byte) (p : Params) (s : State) (hl : s.live) (ha : ¬ s.awaiting) :
    exec (decodePacket opcode p) s = .next (writeWords (packetWords opcode p) s) := by
  have notTaken : ¬ (s.state = .waitpacket ∧ s.packet.index = 0) := fun w => ha ⟨hl, w⟩
  rw [exec_decodePacket, runPacket, whileLive_live s _ hl, if_neg notTaken]

/-- Outside the two phases that take DATA writes the first word of a packet is a misuse, and that ends it (R168). -/
theorem writeWords_noPhase (v : Half) (rest : List Half) (s : State) (hl : s.live) (h1 : s.state ≠ .waitpacket)
    (h2 : s.state ≠ .pioGetData) : writeWords (v :: rest) s = { s with misuse := some .dataWriteNoPhase } := by
  simp [writeWords, hostWriteData, h1, h2, misused, recordHalt, hl.1]

end Sys2Proof.Machine
end

section
/-! The statements on the scope of an operation, settled. -/

namespace Sys2Proof.Machine

open Sys2Proof

/-- Settles O1: the step's three outcomes, one lemma each. -/
theorem stepRunsTheDecodedOperation : Obligations.StepRunsTheDecodedOperation :=
  fun s => ⟨step_of_inbox_nil s, fun x rest h =>
    ⟨fun i => step_of_decode_ok s x rest i h, fun e => step_of_decode_error s x rest e h⟩⟩

/-- Settles O10: every procedure an operation is made of keeps the configuration and the queue. -/
theorem configurationNeverChanges : Obligations.ConfigurationNeverChanges :=
  fun i s t e => exec_keepsConfig i s t e

/-- Settles O24: where a packet is awaited its six words fill the accumulator with its twelve bytes and run the same handler;
elsewhere the packet operation is by definition its words, which agree with the writes as long as these are applied. -/
theorem sixWritesAreThePacket : Obligations.SixWritesAreThePacket := by
  unfold Obligations.SixWritesAreThePacket
  refine ⟨?awaited, ?elsewhere, ?noPhase⟩
  case awaited =>
    intro opcode p s t ha hb e ht
    exact execAll_packetWords ha hb e ht
  case elsewhere =>
    intro opcode p s t ha ht e
    replace e : execAll ((packetWords opcode p).map (.wData 2)) s = .next t := e
    rw [exec_decodePacket_elsewhere opcode p s (live_of_execAll_wData e ht) ha, writeWords_of_execAll e ht]
  case noPhase =>
    intro opcode p s hl h1 h2
    have notAwaited : ¬ s.awaiting := fun a => h1 a.2.1
    rw [exec_decodePacket_elsewhere opcode p s hl notAwaited, packetWords, writeWords_noPhase _ _ s hl h1 h2]

end Sys2Proof.Machine
end

section
/-! SUPPORT. What a procedure can do when it is applied, said once: the read engine, the check of a SET_MODE block, and each
packet's handler. What an operation keeps is read off these cases. -/

namespace Sys2Proof.Machine

open Sys2Proof

/-! ## The read engine (R290 to R295) -/

/-- The controller in a busy state of its own. -/
abbrev engaged (st : GdState) (s : State) : State := { s with state := st }.putStatus bsyBit true

/-- What offering a chunk leaves (R291). -/
def chunkOffered (s : State) : State :=
  responding (Memory.slice s.dma.data s.dma.cursor (min (chunkLimit s) (dmaUnread s))) .readsectorPio
    { s with dma := { s.dma with cursor := s.dma.cursor + min (chunkLimit s) (dmaUnread s) } }

/-- The limit without its lowest bit (R291). -/
theorem chunkLimit_eq (s : State) : chunkLimit s = 2 * (s.pioLimit.toNat / 2) := by
  unfold chunkLimit
  omega

/-- A chunk is always offered: it is within the bytes left and within the PioBuffer's capacity. -/
theorem offerChunk_eq (s : State) : offerChunk s = .ok (chunkOffered s) := by
  have hlimit : chunkLimit s ≤ 65536 := by
    have := s.pioLimit.isLt
    unfold chunkLimit
    omega
  unfold offerChunk
  rcases dmaRead_cases (min (chunkLimit s) (dmaUnread s)) s with ⟨-, e⟩ | ⟨hlt, -⟩
  · simp only [e, pioFill_fits _ _ (show (Memory.slice s.dma.data s.dma.cursor
      (min (chunkLimit s) (dmaUnread s))).length ≤ 65536 by rw [Memory.slice_length]; omega)]
    rfl
  · omega

/-- A failed refill fails the read, after at most one more query (R290). -/
theorem readFail_cases (s : State) :
    ∃ e u, e.key ≠ 0 ∧ (u = s ∨ u = askedPresent s) ∧ readFail s = raiseFail e .none .spi u := by
  unfold readFail
  rcases discReady_cases s with ⟨-, e⟩ | ⟨-, e⟩
  · rw [e]
    exact ⟨_, s, by decide, .inl rfl, rfl⟩
  · rw [e]
    cases s.answers.present with
    | true => exact ⟨⟨0x3, 0x11, 0x00⟩, _, by decide, .inr rfl, rfl⟩
    | false => exact ⟨⟨0x2, 0x3A, 0x00⟩, _, by decide, .inr rfl, rfl⟩

/-- The query a refill makes (R91). -/
abbrev refillQuery (s : State) : Query :=
  .readSectors s.readParams.startSector (min 16 s.readParams.remaining) s.readParams.sectorType

/-- The bytes are an answer of the right length to a refill's query, for sectors of `size` bytes (R91, R103). -/
abbrev Refills (s : State) (size : Nat) (bytes : List Byte) : Prop :=
  sectorSize s.cfg s.readParams.sectorType = some size ∧ bytes.length = min 16 s.readParams.remaining * size

/-- Everything the engine's PIO path can leave (R291). -/
theorem enterReadsectorPio_cases {s t : State} (e : enterReadsectorPio s = .ok t) :
    (s.dma.cursor = s.dma.size ∧ s.readParams.remaining = 0 ∧ t = enterPioEnd (engaged .readsectorPio s)) ∨
    (s.readParams.remaining ≠ 0 ∧ ∃ size bytes, Refills s size bytes ∧
      t = chunkOffered (refilled (min 16 s.readParams.remaining) size bytes (engaged .readsectorPio s))) ∨
    t = readFail ((engaged .readsectorPio s).asking (refillQuery s)) ∨
    (s.dma.cursor ≠ s.dma.size ∧ t = chunkOffered (engaged .readsectorPio s)) := by
  unfold enterReadsectorPio at e
  by_cases hempty : s.dma.cursor = s.dma.size
  · by_cases hdone : s.readParams.remaining = 0
    · simp only [dmaIsEmpty, putStatus_dma, putStatus_readParams, hempty, hdone, beq_self_eq_true, if_pos] at e
      cases e
      exact .inl ⟨hempty, hdone, rfl⟩
    · simp only [dmaIsEmpty, putStatus_dma, putStatus_readParams, hempty, hdone, beq_self_eq_true, if_true, if_false] at e
      rcases dmaFill_cases (engaged .readsectorPio s) with ⟨h, -⟩ | ⟨-, -, f⟩ | ⟨-, size, bytes, hs, -, hl, f⟩ | ⟨-, size, -, -, f⟩
      · exact absurd hempty h
      · rw [f] at e
        cases e
      · simp only [f, offerChunk_eq] at e
        cases e
        exact .inr (.inl ⟨hdone, size, bytes, ⟨hs, hl⟩, rfl⟩)
      · simp only [f] at e
        cases e
        exact .inr (.inr (.inl rfl))
  · have hleft : ¬ (s.dma.cursor == s.dma.size) = true := by simpa using hempty
    simp only [dmaIsEmpty, putStatus_dma, if_neg hleft, offerChunk_eq] at e
    cases e
    exact .inr (.inr (.inr ⟨hempty, rfl⟩))

/-- Everything the engine's DMA path can leave (R295). -/
theorem dmaService_cases {s t : State} (e : dmaService s = .ok t) :
    (s.dma.cursor = s.dma.size ∧ t = enterProcpacketdone .complete s) ∨
    (s.readParams.remaining ≠ 0 ∧ ∃ size bytes, Refills s size bytes ∧
      t = refilled (min 16 s.readParams.remaining) size bytes s) ∨
    t = readFail (s.asking (refillQuery s)) ∨
    (s.dma.cursor ≠ s.dma.size ∧ t = s) := by
  unfold dmaService at e
  by_cases hempty : s.dma.cursor = s.dma.size
  · by_cases hdone : s.readParams.remaining = 0
    · simp only [dmaIsEmpty, hempty, hdone, beq_self_eq_true, if_pos] at e
      cases e
      exact .inl ⟨hempty, rfl⟩
    · simp only [dmaIsEmpty, hempty, hdone, beq_self_eq_true, if_true, if_false] at e
      rcases dmaFill_cases s with ⟨h, -⟩ | ⟨-, -, f⟩ | ⟨-, size, bytes, hs, -, hl, f⟩ | ⟨-, size, -, -, f⟩
      · exact absurd hempty h
      · rw [f] at e
        cases e
      · simp only [f] at e
        cases e
        exact .inr (.inl ⟨hdone, size, bytes, ⟨hs, hl⟩, rfl⟩)
      · simp only [f] at e
        cases e
        exact .inr (.inr (.inl rfl))
  · have hleft : ¬ (s.dma.cursor == s.dma.size) = true := by simpa using hempty
    rw [dmaIsEmpty, if_neg hleft] at e
    cases e
    exact .inr (.inr (.inr ⟨hempty, rfl⟩))

/-! ## The SET_MODE block (R232, R233) -/

/-- The block checked and stored. -/
abbrev modeStored (s : State) : State :=
  { engaged .processSetMode s with
    hwInfo := (List.range 32).map (modeByteAfter s s.setMode.offset.toNat s.setMode.length.toNat) }

/-- The block is checked against its end and then stored (R233). -/
theorem enterProcessSetMode_cases (s : State) :
    (32 < s.setMode.offset.toNat + s.setMode.length.toNat ∧ enterProcessSetMode s =
      .ok (raiseFail { key := 0x5, asc := 0x26, ascq := 0x00 } .ili .spi (engaged .processSetMode s))) ∨
    (s.setMode.offset.toNat + s.setMode.length.toNat ≤ 32 ∧ enterProcessSetMode s = .ok (enterPioEnd (modeStored s))) := by
  unfold enterProcessSetMode
  by_cases h : 32 < s.setMode.offset.toNat + s.setMode.length.toNat
  · exact .inl ⟨h, if_pos h⟩
  · exact .inr ⟨by omega, if_neg h⟩

/-- The latch set and the PioBuffer made ready for a block of `n` bytes (R232, R82). -/
abbrev blockExpected (m : SetModeLatch) (n : Nat) (s : State) : State :=
  { s with setMode := m, pio := { s.pio with cursor := 0, size := (n + 1) / 2, nextState := .processSetMode } }

/-! ## The packets' handlers (R220) -/

/-- The frame a seek moves to, with a playback state where there was none, and DSC (R270). -/
abbrev sought (target : Fad) (s : State) : State :=
  { s with cdda := { s.cdda with
      current := target
      status := if s.cdda.status = CddaStatus.noInfo then CddaStatus.paused else s.cdda.status } }.putStatus dscBit true

/-- What a playback packet does before it completes (R268 to R274). -/
inductive Plays (s : State) : State → Prop
  | play (rep : BitVec 4) (first last : Fad) (range : first.toNat ≤ last.toNat) :
      Plays s (({ s with cdda := { status := .playing, repeats := rep, current := first, last := last, start := first,
                                   scan := .none } }.putStatus dscBit true).putUnit unitPlay)
  | resume (paused : s.cdda.status = .paused) (inside : s.cdda.inRange s.cdda.current = true) :
      Plays s ({ s with cdda := { s.cdda with status := .playing } }.putUnit unitPlay)
  | resumeOutside (paused : s.cdda.status = .paused) :
      Plays s ({ s with cdda := { s.cdda with status := .terminated } }.putUnit unitStandby)
  | seek (target : Fad) (inside : s.cdda.status = .playing → s.cdda.inRange target = true) :
      Plays s (unitFromCdda (sought target s))
  | pause : Plays s ({ s with cdda := { s.cdda with status := .paused, scan := .none } }.putUnit unitPause)
  | scan (target : Fad) (direction : Scan) (inside : s.cdda.inRange target = true) :
      Plays s (({ s with cdda := { s.cdda with current := target, scan := direction, status := .playing } }.putStatus
        dscBit true).putUnit unitScan)

/-- Both fields of the sector number written in turn: the DiscFormat, then the unit status. -/
theorem putDiscFormat_putUnit_sectNum (s : State) (format unit : BitVec 4) :
    ((s.putDiscFormat format).putUnit unit).sectNum = format ++ unit := by
  have kept : (s.putDiscFormat format).sectNum.extractLsb' 4 4 = format := putDiscFormat_discFormat s format
  rw [putUnit_sectNum, kept]

/-- CD_OPEN's part before it completes (R265). -/
abbrev trayOpened (s : State) : State :=
  { s with
    cdda := { s.cdda with status := .terminated, scan := .none }, tocCache := none, trayOpen := true, sectNum := 0x06
    pio := { s.pio with cursor := 0, size := 0, nextState := .pioEnd }, dma := { s.dma with cursor := 0, size := 0 } }

theorem spiCdOpen_eq (p : Params) (s : State) : spiCdOpen p s = .ok (spiDone (trayOpened s)) := by
  have written : ((s.putDiscFormat 0).putUnit unitOpen).sectNum = 0x06 := putDiscFormat_putUnit_sectNum s 0 unitOpen
  have run : spiCdOpen p s =
      .ok (spiDone { trayOpened s with sectNum := ((s.putDiscFormat 0).putUnit unitOpen).sectNum }) := rfl
  rw [run, written]

/-- The opcodes whose handlers move the CDDA position (R280). -/
abbrev positions (op : SpiOp) : Prop := op = .cdPlay ∨ op = .cdSeek ∨ op = .cdScan

/-- The states a handler of the opcode's row can pass through before it ends the packet or opens its phase. -/
inductive Prepared (op : SpiOp) (s : State) : State → Prop
  | start : Prepared op s s
  | asked {u : State} (h : Prepared op s u) : Prepared op s (askedPresent u)
  | tocAsked {u : State} (h : Prepared op s u) : Prepared op s (u.asking .getTOC)
  | tocKept {u : State} {toc : Toc} (h : Prepared op s u) (closed : u.trayOpen = false) (valid : tocValid toc = true) :
      Prepared op s ((u.asking .getTOC).keepToc toc)
  | collected {u : State} (row : op = .reqError) (h : Prepared op s u) : Prepared op s (collectError u)
  | opened {u : State} (row : op = .cdOpen) (h : Prepared op s u) : Prepared op s (trayOpened u)
  | moved {u v : State} (row : positions op) (h : Prepared op s u) (closed : u.trayOpen = false) (m : Plays u v) :
      Prepared op s v

/-- The read parameters and the limit of a sector read (R286). -/
abbrev readBegun (p : Params) (count : Nat) (s : State) : State :=
  { dmaClear { s with readParams :=
      { startSector := p.readStart.toNat, remaining := count, sectorType := p.sectorType } } with pioLimit := s.byteCount }

/-- How a packet whose handler started in `s` ends or opens its phase. -/
inductive Answered (op : SpiOp) (s : State) : State → Prop
  | done {u : State} (h : Prepared op s u) : Answered op s (spiDone u)
  | failed {u : State} {e : Sense} {b : ErrorBit} (key : e.key ≠ 0) (h : Prepared op s u) :
      Answered op s (raiseFail e b .spi u)
  | responds {u : State} {bytes : List Byte} (some : 0 < bytes.length) (fits : bytes.length ≤ 65536) (h : Prepared op s u) :
      Answered op s (responding bytes .pioEnd u)
  | receives {u : State} {m : SetModeLatch} {n : Nat} (some : 0 < n) (fits : n ≤ 65536) (h : Prepared op s u) :
      Answered op s (enterPioGetData (blockExpected m n u))
  | stores {u t : State} {m : SetModeLatch} (h : Prepared op s u)
      (e : enterProcessSetMode (blockExpected m 0 u) = .ok t) : Answered op s t
  | readsByDma {u t : State} {p : Params} {count : Nat} (dma : u.dmaEnable = true) (range : count < 2 ^ 24)
      (sized : (sectorSize u.cfg p.sectorType).isSome = true) (h : Prepared op s u)
      (e : enterReadsectorDma (readBegun p count u) = .ok t) : Answered op s t
  | readsByPio {u t : State} {p : Params} {count : Nat} (pio : u.dmaEnable = false) (range : count < 2 ^ 24)
      (sized : (sectorSize u.cfg p.sectorType).isSome = true) (limit : 0 < count → 2 ≤ u.byteCount.toNat)
      (h : Prepared op s u) (e : enterReadsectorPio (readBegun p count u) = .ok t) : Answered op s t

/-- Where the procedure is applied it goes on from what a handler of this row may have prepared. -/
def Leads (op : SpiOp) (k : Act) : Prop := ∀ ⦃s u t⦄, Prepared op s u → k u = .ok t → Answered op s t

/-- The same behind the question for the disc, which an open tray does not pass. -/
def LeadsClosed (op : SpiOp) (k : Act) : Prop :=
  ∀ ⦃s u t⦄, Prepared op s u → u.trayOpen = false → k u = .ok t → Answered op s t

section Answers

variable {op : SpiOp} {s u t : State}

theorem answered_done (h : Prepared op s u) (e : .ok (spiDone u) = (.ok t : Except Halt State)) : Answered op s t := by
  cases e
  exact .done h

theorem answered_failField (h : Prepared op s u) (e : .ok (failField u) = (.ok t : Except Halt State)) : Answered op s t := by
  cases e
  exact .failed (by decide) h

theorem answered_pioRespond {bytes : List Byte} (h : Prepared op s u) (e : pioRespond bytes .pioEnd u = .ok t) :
    Answered op s t := by
  rcases pioRespond_cases bytes .pioEnd u with ⟨-, e'⟩ | ⟨some, fits, e'⟩ | ⟨-, e'⟩
  · exact answered_done h (e'.symm.trans e)
  · cases e'.symm.trans e
    exact .responds some fits h
  · cases e'.symm.trans e

theorem prepared_discReady (h : Prepared op s u) : Prepared op s (discReady u).2 := by
  rcases discReady_cases u with ⟨-, e⟩ | ⟨-, e⟩
  · rw [e]
    exact h
  · rw [e]
    exact h.asked

theorem discReady_closed (h : (discReady u).1 = true) : (discReady u).2.trayOpen = false := by
  rcases discReady_cases u with ⟨-, e⟩ | ⟨closed, e⟩
  · rw [e] at h
    cases h
  · rw [e]
    exact closed

theorem discReady_cfg (u : State) : (discReady u).2.cfg = u.cfg := (discReady_sameConfig (.refl u)).1

theorem prepared_cachedToc (h : Prepared op s u) (closed : u.trayOpen = false) : Prepared op s (cachedToc u).2 := by
  rcases cachedToc_cases u with ⟨toc, -, e⟩ | ⟨-, toc, -, valid, e⟩ | ⟨-, -, e⟩
  · rw [e]
    exact h
  · rw [e]
    exact h.tocKept closed valid
  · rw [e]
    exact h.tocAsked

theorem cachedToc_trayOpen (u : State) : (cachedToc u).2.trayOpen = u.trayOpen := by
  rcases cachedToc_cases u with ⟨toc, -, e⟩ | ⟨-, toc, -, -, e⟩ | ⟨-, -, e⟩ <;> simp [e]

theorem prepared_tocIfReady (h : Prepared op s u) : Prepared op s (tocIfReady u).2 := by
  rcases tocIfReady_cases u with ⟨ready, e⟩ | ⟨-, e⟩
  · rw [e]
    exact prepared_cachedToc (prepared_discReady h) (discReady_closed ready)
  · rw [e]
    exact prepared_discReady h

theorem leads_needReady {k : Act} (hk : LeadsClosed op k) : Leads op (needReady k) := by
  intro s u t h e
  rcases needReady_cases k u with ⟨ready, e'⟩ | ⟨-, e'⟩
  · exact hk (prepared_discReady h) (discReady_closed ready) (e'.symm.trans e)
  · cases e'.symm.trans e
    exact .failed (by decide) (prepared_discReady h)

theorem leadsClosed_needToc {k : Toc → Act} (hk : ∀ toc, LeadsClosed op (k toc)) : LeadsClosed op (needToc k) := by
  intro s u t h closed e
  have h' := prepared_cachedToc h closed
  rcases needToc_cases k u with ⟨toc, -, e'⟩ | ⟨-, e'⟩
  · exact hk toc h' ((cachedToc_trayOpen u).trans closed) (e'.symm.trans e)
  · cases e'.symm.trans e
    exact .failed (by decide) h'

end Answers

/-! ### The information packets -/

theorem spiTestUnit_leads (p : Params) : Leads .testUnit (spiTestUnit p) :=
  leads_needReady fun _ _ _ h _ e => answered_done h e

theorem spiReqStat_leads (p : Params) : Leads .reqStat (spiReqStat p) :=
  fun _ _ _ h e => answered_pioRespond (prepared_tocIfReady h) e

theorem spiReqMode_leads (p : Params) : Leads .reqMode (spiReqMode p) := fun _ _ _ h e => answered_pioRespond h e

theorem spiSetMode_leads (p : Params) : Leads .setMode (spiSetMode p) := by
  intro s u t h e
  have fits : p.alloc8.toNat ≤ 65536 := by
    have := p.alloc8.isLt
    omega
  simp only [spiSetMode, pioReceive, pioFill_fits _ _ fits] at e
  split at e
  · rename_i hzero
    rw [hzero] at e
    exact .stores h e
  · rename_i hsome
    cases e
    exact .receives (Nat.pos_of_ne_zero hsome) fits h

theorem spiReqError_leads (p : Params) : Leads .reqError (spiReqError p) :=
  fun _ _ _ h e => answered_pioRespond (h.collected rfl) e

theorem spiGetToc_leads (p : Params) : Leads .getToc (spiGetToc p) :=
  leads_needReady (leadsClosed_needToc fun _ _ _ _ h _ e => answered_pioRespond h e)

theorem spiReqSes_leads (p : Params) : Leads .reqSes (spiReqSes p) := by
  refine leads_needReady (leadsClosed_needToc fun toc s u t h _ e => ?_)
  split at e
  · exact answered_failField h e
  · exact answered_pioRespond h e

theorem spiGetScd_leads (p : Params) : Leads .getScd (spiGetScd p) := by
  intro s u t h e
  unfold spiGetScd at e
  split at e
  · exact answered_pioRespond (prepared_tocIfReady h) e
  · exact answered_failField h e

theorem spiUnrecognizedOpcode_leads (p : Params) : Leads .other (spiUnrecognizedOpcode p) := by
  intro s u t h e
  cases e
  exact .failed (by decide) h

/-! ### The tray and playback packets -/

theorem spiCdOpen_leads (p : Params) : Leads .cdOpen (spiCdOpen p) :=
  fun _ u _ h e => answered_done (h.opened rfl) ((spiCdOpen_eq p u).symm.trans e)

theorem playRangeOk_le {toc : Toc} {first last : Fad} (h : playRangeOk toc first last = true) : first.toNat ≤ last.toNat := by
  simp only [playRangeOk, Bool.and_eq_true, decide_eq_true_eq] at h
  exact h.1.2

theorem playFrom_leads (p : Params) : LeadsClosed .cdPlay (playFrom p) := by
  refine leadsClosed_needToc fun toc s u t h closed e => ?_
  split at e
  · rename_i range
    exact answered_done (h.moved (.inl rfl) closed (.play _ _ _ (playRangeOk_le range))) e
  · exact answered_failField h e

theorem resume_leads : LeadsClosed .cdPlay resume := by
  intro s u t h closed e
  unfold resume at e
  split at e
  · rename_i paused
    split at e
    · rename_i inside
      exact answered_done (h.moved (.inl rfl) closed (.resume paused inside)) e
    · exact answered_done (h.moved (.inl rfl) closed (.resumeOutside paused)) e
  · exact answered_done h e

theorem spiCdPlay_leads (p : Params) : Leads .cdPlay (spiCdPlay p) := by
  refine leads_needReady fun s u t h closed e => ?_
  split at e
  · exact playFrom_leads p h closed e
  · exact playFrom_leads p h closed e
  · exact resume_leads h closed e
  · exact answered_failField h e

theorem seekTo_leads (p : Params) : LeadsClosed .cdSeek (seekTo p) := by
  intro s u t h closed e
  unfold seekTo at e
  split at e
  · exact answered_failField h e
  · rename_i inside
    have inside' : u.cdda.status = .playing → u.cdda.inRange p.position = true := by
      intro playing
      cases hr : u.cdda.inRange p.position with
      | true => rfl
      | false => exact absurd ⟨playing, hr⟩ inside
    exact answered_done (h.moved (.inr (.inl rfl)) closed (.seek _ inside')) e

theorem pause_leads : LeadsClosed .cdSeek pause := by
  intro s u t h closed e
  unfold pause at e
  split at e
  · exact answered_done (h.moved (.inr (.inl rfl)) closed .pause) e
  · exact answered_done h e

theorem spiCdSeek_leads (p : Params) : Leads .cdSeek (spiCdSeek p) := by
  refine leads_needReady fun s u t h closed e => ?_
  split at e
  · exact seekTo_leads p h closed e
  · exact seekTo_leads p h closed e
  · exact pause_leads h closed e
  · exact answered_failField h e

theorem scanFrom_leads (p : Params) : LeadsClosed .cdScan (scanFrom p) := by
  intro s u t h closed e
  unfold scanFrom at e
  split at e
  · rename_i inside
    exact answered_done (h.moved (.inr (.inr rfl)) closed (.scan _ _ inside)) e
  · exact answered_failField h e

theorem spiCdScan_leads (p : Params) : Leads .cdScan (spiCdScan p) := by
  refine leads_needReady fun s u t h closed e => ?_
  split at e
  · exact scanFrom_leads p h closed e
  · exact scanFrom_leads p h closed e
  · exact answered_failField h e

/-! ### The sector reads -/

/-- A sector read that is applied has a descriptor with a size, and by PIO a usable limit (R286). -/
theorem readStart_leads (op : SpiOp) (p : Params) (count : Nat) (range : count < 2 ^ 24) : Leads op (readStart p count) := by
  intro s u t h e
  unfold readStart at e
  split at e
  · cases e
  · rename_i size hsize
    rcases needReady_cases _ u with ⟨-, e'⟩ | ⟨-, e'⟩
    · replace e := e'.symm.trans e
      have sized : (sectorSize (discReady u).2.cfg p.sectorType).isSome = true := by rw [discReady_cfg, hsize]; rfl
      have h' := prepared_discReady h
      generalize (discReady u).2 = v at e sized h'
      split at e
      · cases e
      · rename_i usable
        dsimp only at e
        split at e
        · rename_i dma
          exact .readsByDma dma range sized h' e
        · rename_i pio
          replace pio := Bool.eq_false_iff.mpr pio
          exact .readsByPio pio range sized (fun some => not_lt.mp fun small => usable ⟨pio, some, small⟩) h' e
    · cases e'.symm.trans e
      exact .failed (by decide) (prepared_discReady h)

theorem spiCdRead_leads (p : Params) : Leads .cdRead (spiCdRead p) := readStart_leads _ p _ p.count24.isLt

theorem spiCdRead2_leads (p : Params) : Leads .cdRead2 (spiCdRead2 p) :=
  readStart_leads _ p _ (Nat.lt_trans p.count16.isLt (by decide))

/-- Everything an applied packet can do (R220). -/
theorem spiHandler_leads (opcode : Byte) (p : Params) : Leads (spiOp opcode) (spiHandler opcode p) := by
  unfold spiHandler
  cases spiOp opcode with
  | testUnit => exact spiTestUnit_leads p
  | reqStat => exact spiReqStat_leads p
  | reqMode => exact spiReqMode_leads p
  | setMode => exact spiSetMode_leads p
  | reqError => exact spiReqError_leads p
  | getToc => exact spiGetToc_leads p
  | reqSes => exact spiReqSes_leads p
  | cdOpen => exact spiCdOpen_leads p
  | cdPlay => exact spiCdPlay_leads p
  | cdSeek => exact spiCdSeek_leads p
  | cdScan => exact spiCdScan_leads p
  | cdRead => exact spiCdRead_leads p
  | cdRead2 => exact spiCdRead2_leads p
  | getScd => exact spiGetScd_leads p
  | other => exact spiUnrecognizedOpcode_leads p

end Sys2Proof.Machine
end

section
/-! SUPPORT. The TOC query as one update of the state, and numbers read
from packet bytes. -/

namespace Sys2Proof.Machine

open Sys2Proof

/-- Two packet bytes as a number, the high byte first (R131). -/
theorem be16_toNat (b0 b1 : Byte) : (be16 b0 b1).toNat = b0.toNat * 256 + b1.toNat := by
  have := b1.isLt
  rw [be16, BitVec.toNat_append, ← Nat.shiftLeft_add_eq_or_of_lt this, Nat.shiftLeft_eq]

/-- The packet path to a plain completion, as a response that turns out empty ends. -/
theorem status_packet_answered (w : Byte) :
    putBit (putBit (putBit (putBit (putBit (putBit (putBit w drqBit false) bsyBit true) drdyBit true) drqBit false) bsyBit false)
      drdyBit true) bsyBit false = ((w &&& 0x7F#8) &&& 0x77#8) ||| 0x40#8 := by
  rw [status_packet_done, BitVec.and_assoc]
  rfl

/-- The state after a TOC query that was answered (R46, R104): the TOC cached, the DiscFormat after it, and the provider asked
if the cache was empty. -/
abbrev tocKnown (toc : Toc) (s : State) : State :=
  { s with
    tocCache := some toc
    sectNum := sectNumWith s.unitStatus toc s
    obs := { s.obs with queries := s.obs.queries ++ (if s.tocCache = none then [.getTOC] else []) } }

/-- With a TOC at hand the query gives it and leaves it cached. -/
theorem cachedToc_hasToc {s : State} {toc : Toc} (h : s.hasToc toc) : cachedToc s = (some toc, tocKnown toc s) := by
  rw [cachedToc_has s toc h]
  rcases h with cached | ⟨empty, -, -⟩
  · have full : s.tocCache ≠ none := by simp [cached]
    have whole : sectNumWith s.unitStatus toc s = s.sectNum := by
      rw [sectNumWith, if_neg full, unitStatus_discFormat_whole]
    rw [if_neg full, tocKnown, whole, if_neg full, List.append_nil, ← cached]
  · rw [if_pos empty, tocKnown, sectNumWith, if_pos empty, if_pos empty]
    rfl

end Sys2Proof.Machine
end

section
/-! The power-on reset, CD_OPEN and GET_TOC, settled. -/

namespace Sys2Proof.Machine

open Sys2Proof

/-- Settles O60: the reset closes the tray, so the one question it asks fixes the unit status. -/
theorem hardResetSetsEveryField : Obligations.HardResetSetsEveryField := by
  intro s
  refine ⟨_, rfl, ?_⟩
  unfold hardResetState
  generalize hu : State.putDiscFormat _ _ = u
  rcases unitRefresh_cases u with ⟨opened, -⟩ | ⟨-, e⟩
  · rw [← hu] at opened
    cases opened
  · have hs : (u.putUnit (if u.answers.present then unitStandby else unitNoDisc)).sectNum =
        if s.answers.present then 0x02 else 0x07 := by
      rw [← hu, putDiscFormat_putUnit_sectNum]
      show ((0#4 ++ (if s.answers.present then unitStandby else unitNoDisc) : Byte)) = _
      cases s.answers.present <;> rfl
    rw [e]
    refine ⟨?_, ?_, ?_⟩
    · subst hu
      intro a
      rfl
    · subst hu
      intro a
      rfl
    · rw [← hs]
      subst hu
      rfl

/-- Settles O45: CD_OPEN asks nothing and completes from the opened tray. -/
theorem cdOpenStopsEverything : Obligations.CdOpenStopsEverything := by
  intro p s a
  refine ⟨_, runPacket_next 0x16 spiCdOpen p s _ a (spiCdOpen_eq p _), ?_, rfl, rfl⟩
  exact commandEnds_packet [] s _ rfl rfl (by simp)

/-- Settles O41: both questions are answered, and the response is the first bytes of the serialized TOC. -/
theorem getTocSendsTheToc : Obligations.GetTocSendsTheToc := by
  intro p s toc a ready has
  have hready : (dispatched 0x14 p s).ready := ready
  have htoc : (askedPresent (dispatched 0x14 p s)).hasToc toc := has
  have hlength : p.alloc16.toNat = p.b3.toNat * 256 + p.b4.toNat := be16_toNat p.b3 p.b4
  have fits : (window (tocBytes toc) 0 (p.b3.toNat * 256 + p.b4.toNat)).length ≤ 65536 := by
    have := p.alloc16.isLt
    rw [window_length]
    omega
  have run : spiGetToc p (dispatched 0x14 p s) =
      pioRespond (window (tocBytes toc) 0 (p.b3.toNat * 256 + p.b4.toNat)) .pioEnd
        (tocKnown toc (askedPresent (dispatched 0x14 p s))) := by
    rw [spiGetToc, needReady_ready _ _ hready, needToc, cachedToc_hasToc htoc, ← hlength]
    rfl
  have asked : (tocKnown toc (askedPresent (dispatched 0x14 p s))).obs =
      { s.obs with queries := s.obs.queries ++ tocQueries s } := by
    show ({ s.obs with queries := (s.obs.queries ++ [.isDiscPresent]) ++ (if s.tocCache = none then _ else _) } :
      Observation) = _
    rw [List.append_assoc, tocQueries]
    split <;> rfl
  obtain ⟨t, e, responds, frame⟩ := packetResponds_respond _ 0x7F#8 (tocQueries s) s
    (tocKnown toc (askedPresent (dispatched 0x14 p s))) fits (status_packet_answered s.status) (status_packet_phase s.status)
    rfl asked rfl rfl rfl rfl
  refine ⟨t, runPacket_next 0x14 spiGetToc p s t a (run.trans e), responds, ?_, ?_⟩
  · rw [frame]
    rfl
  · rw [frame]
    rfl

end Sys2Proof.Machine
end

section
/-! SUPPORT. What an operation can do, said once: it is not applied, or it is one of the cases of `Ran`. -/

namespace Sys2Proof.Machine

open Sys2Proof

/-! ## The ATA commands (R200) -/

/-- How a command ends that was accepted in `u`; `resets` says that its code is one of the two resetting ones. -/
inductive Commanded (resets : Prop) (u : State) : State → Prop
  | done (idle : u.state = .waitcmd) : Commanded resets u (ataComplete .complete u)
  | modeSet {mode : Byte} {dma : Bool} (idle : u.state = .waitcmd) :
      Commanded resets u (ataComplete .complete { u with transferMode := mode, dmaEnable := dma })
  | reset (code : resets) : Commanded resets u (raiseIrq .complete (softResetState u))
  | packet (idle : u.state = .waitcmd) : Commanded resets u (enterWaitpacket u)
  | empty (idle : u.state = .waitcmd) (none : u.cfg.identifyBlock = []) : Commanded resets u (enterProcpacketdone .complete u)
  | responds (idle : u.state = .waitcmd) (some : 0 < u.cfg.identifyBlock.length) (fits : u.cfg.identifyBlock.length ≤ 65536) :
      Commanded resets u (responding u.cfg.identifyBlock .pioEnd u)
  | failed {e : Sense} {b : ErrorBit} (key : e.key ≠ 0) : Commanded resets u (raiseFail e b .ata u)

theorem ataIdentify_commanded {resets : Prop} {u t : State} (idle : u.state = .waitcmd) (e : ataIdentify u = .ok t) :
    Commanded resets u t := by
  rcases pioRespond_cases u.cfg.identifyBlock .pioEnd u with ⟨none, e'⟩ | ⟨some, fits, e'⟩ | ⟨-, e'⟩
  · cases e'.symm.trans e
    exact .empty idle none
  · cases e'.symm.trans e
    exact .responds idle some fits
  · cases e'.symm.trans e

theorem ataSetFeatures_commanded {resets : Prop} {u t : State} (idle : u.state = .waitcmd) (e : ataSetFeatures u = .ok t) :
    Commanded resets u t := by
  unfold ataSetFeatures at e
  split at e
  · cases e
    exact .modeSet idle
  · cases e
    exact .failed (by decide)

/-- The dispatcher's row for the one code that is taken in every state, and for the two that reset (R169, R202, R203). -/
theorem ataOp_resets (code : Byte) :
    (code = 0x08 → ataOp code = .softReset) ∧ (ataOp code = .softReset → code = 0x08) ∧ (ataOp code = .execDiag → code = 0x90) := by
  revert code
  decide

/-- Everything an accepted command can do (R200). -/
theorem ataHandler_commanded {code : Byte} {u t : State} (taken : code = 0x08 ∨ u.state = .waitcmd)
    (e : ataHandler code u = .ok t) : Commanded (code = 0x08 ∨ code = 0x90) u t := by
  obtain ⟨inEveryState, softCode, diagCode⟩ := ataOp_resets code
  have idle (h : ataOp code ≠ .softReset) : u.state = .waitcmd := taken.resolve_left fun hc => h (inEveryState hc)
  unfold ataHandler at e
  cases h : ataOp code with
  | softReset =>
    rw [h] at e
    cases e
    exact .reset (.inl (softCode h))
  | execDiag =>
    rw [h] at e
    cases e
    exact .reset (.inr (diagCode h))
  | other =>
    rw [h] at e
    cases e
    exact .failed (by decide)
  | nop =>
    rw [h] at e
    cases e
    exact .done (idle (by simp [h]))
  | spiPacket =>
    rw [h] at e
    cases e
    exact .packet (idle (by simp [h]))
  | identifyDevice | identify =>
    rw [h] at e
    exact ataIdentify_commanded (idle (by simp [h])) e
  | setFeatures =>
    rw [h] at e
    exact ataSetFeatures_commanded (idle (by simp [h])) e

/-! ## The DATA port (R164 to R168) -/

/-- A word read at the cursor and returned (R84, R164). -/
abbrev wordRead (s : State) : State :=
  { s with pio := { s.pio with cursor := s.pio.cursor + 1 } }.returning (.word (pioWord s s.pio.cursor))

/-- A word stored at the cursor (R85). -/
abbrev wordStored (v : Half) (s : State) : State :=
  { s with pio := { s.pio with
      data := Memory.write (Memory.write s.pio.data (2 * s.pio.cursor) (v.extractLsb' 0 8))
        (2 * s.pio.cursor + 1) (v.extractLsb' 8 8)
      cursor := s.pio.cursor + 1 } }

/-- Packet bytes put into the accumulator (R166). -/
abbrev bytesCollected (n : Nat) (v : Half) (s : State) : State :=
  { s with packet := { b := packetBytesAfter s.packet.b s.packet.index n v, index := s.packet.index + n } }

/-- What follows an access: the phase goes on, or its continuation is entered (R86). -/
theorem endPhaseIfDrained_cases (s : State) :
    (s.pio.cursor = s.pio.size ∧ endPhaseIfDrained s = enter s.pio.nextState (s.putStatus drqBit false)) ∨
    (s.pio.cursor ≠ s.pio.size ∧ endPhaseIfDrained s = .ok s) := by
  unfold endPhaseIfDrained pioAtEnd
  by_cases h : s.pio.cursor = s.pio.size
  · exact .inl ⟨h, if_pos (by simpa using h)⟩
  · exact .inr ⟨h, if_neg (by simpa using h)⟩

/-- A DATA read that is applied takes the word at the cursor (R164). -/
theorem hostReadData_ok {n : Nat} {s t : State} (e : hostReadData n s = .ok t) :
    s.state = .pioSendData ∧ n = 2 ∧ s.pio.cursor < s.pio.size ∧ endPhaseIfDrained (wordRead s) = .ok t := by
  unfold hostReadData at e
  split at e
  · cases e
  · rename_i phase
    split at e
    · cases e
    · rename_i size
      rcases pioRead_cases s with ⟨left, e'⟩ | ⟨-, e'⟩
      · rw [e'] at e
        exact ⟨not_not.mp phase, not_not.mp size, left, e⟩
      · rw [e'] at e
        cases e

/-- A DATA write that is applied brings packet bytes, the last of them or not, or a word of a block (R166, R167). -/
theorem hostWriteData_ok {n : Nat} {v : Half} {s t : State} (e : hostWriteData n v s = .ok t) :
    (s.state = .waitpacket ∧ 0 < n ∧ n ≤ 2 ∧ s.packet.index + n < 12 ∧ t = bytesCollected n v s) ∨
    (s.state = .waitpacket ∧ 0 < n ∧ n ≤ 2 ∧ s.packet.index + n = 12 ∧ enterProcpacket (bytesCollected n v s) = .ok t) ∨
    (s.state = .pioGetData ∧ s.pio.cursor < s.pio.size ∧ endPhaseIfDrained (wordStored v s) = .ok t) := by
  unfold hostWriteData at e
  split at e
  · cases e
  · rename_i size
    have small : 0 < n ∧ n ≤ 2 := by omega
    split at e
    · rename_i waits
      unfold collectPacket packetBytes at e
      dsimp only at e
      split at e
      · cases e
      · rename_i fits
        split at e
        · rename_i twelfth
          exact .inr (.inl ⟨waits, small.1, small.2, twelfth, e⟩)
        · rename_i later
          cases e
          exact .inl ⟨waits, small.1, small.2, by omega, rfl⟩
    · split at e
      · rename_i phase
        split at e
        · rcases pioWrite_cases v s with ⟨left, e'⟩ | ⟨-, e'⟩
          · rw [e'] at e
            exact .inr (.inr ⟨phase, left, e⟩)
          · rw [e'] at e
            cases e
        · cases e
      · cases e

/-- A pull that is applied takes the bytes and has the DMA service go on (R295, R297). -/
theorem dmaPullBytes_ok {len : Nat} {s t : State} (e : dmaPullBytes len s = .ok t) :
    s.state = .readsectorDma ∧ s.dma.cursor + len ≤ max s.dma.cursor s.dma.size ∧
    dmaService ({ s with dma := { s.dma with cursor := s.dma.cursor + len } }.returning
      (.bytes (Memory.slice s.dma.data s.dma.cursor len))) = .ok t := by
  unfold dmaPullBytes at e
  split at e
  · cases e
  · rename_i phase
    rcases dmaRead_cases len s with ⟨fits, e'⟩ | ⟨-, e'⟩
    · rw [e'] at e
      unfold dmaUnread at fits
      exact ⟨not_not.mp phase, by omega, e⟩
    · rw [e'] at e
      cases e

/-! ## The operations -/

/-- What is left of an operation that is not applied (R350, R351): the reason, the queries made and, for a read, the free
bytes returned. -/
def Unapplied (s t : State) : Prop :=
  t = { s with misuse := t.misuse, refused := t.refused, freeCount := t.freeCount,
               obs := { s.obs with returned := t.obs.returned, queries := t.obs.queries } }

theorem unapplied_recordHalt (f : Halt) (s : State) : Unapplied s (recordHalt f s) := by
  rcases recordHalt_cases f s with ⟨r, -, e⟩ | ⟨r, -, e⟩ <;> (rw [e]; rfl)

theorem unapplied_unfixedRead (f : Halt) (n : Nat) (s : State) : Unapplied s (unfixedRead f n s) := by
  rcases recordHalt_cases f s with ⟨r, -, e⟩ | ⟨r, -, e⟩ <;> (rw [unfixedRead, e]; rfl)

theorem unapplied_unfixedPull (f : Halt) (len : Nat) (s : State) : Unapplied s (unfixedPull f len s) := by
  rcases recordHalt_cases f s with ⟨r, -, e⟩ | ⟨r, -, e⟩ <;> (rw [unfixedPull, e]; rfl)

/-- A register access of the right size: the shadows the host writes, the value returned and INTRQ can change (R161 to R163). -/
def Accessed (s t : State) : Prop :=
  t = { s with features := t.features, sectCount := t.sectCount, byteCount := t.byteCount, driveSel := t.driveSel,
               intrq := t.intrq, obs := { s.obs with returned := t.obs.returned } }

/-- Everything an operation that is applied can do. -/
inductive Ran (i : Instr) (s : State) : State → Prop
  | accessed {t : State} (h : Accessed s t) (request : t.intrq = s.intrq ∨ (t.intrq = false ∧ i = .rStatus 1)) : Ran i s t
  | read {t : State} {n : Nat} (op : i = .rData n) (e : hostReadData n s = .ok t) : Ran i s t
  | written {t : State} {n : Nat} {v : Half} (op : i = .wData n v) (e : hostWriteData n v s = .ok t) : Ran i s t
  | commanded {t : State} {resets : Prop} (row : resets → collectsError i s ∧ movesAudio i s)
      (h : Commanded resets (acceptCommand s) t) : Ran i s t
  | dispatched {t : State} {op : SpiOp} {opcode : Byte} {p : Params} (waits : s.state = .waitpacket)
      (collects : op = .reqError → collectsError i s) (plays : positions op ∨ op = .cdOpen → movesAudio i s)
      (h : Answered op (dispatched opcode p s) t) : Ran i s t
  | wrote {ws : List Half} (op : isPacket i = true) (elsewhere : ¬ (s.state = .waitpacket ∧ s.packet.index = 0)) :
      Ran i s (writeWords ws s)
  | pulled {t : State} {len : Nat} (e : dmaPullBytes len s = .ok t) : Ran i s t
  | advanced (op : i = .cddaAdvance) : Ran i s (cddaStep s)
  | trayClosed : Ran i s (closeTray s)
  | poweredOn (op : i = .hardReset) : Ran i s (hardResetState s)

section Operations

variable {i : Instr} {s t : State}

theorem next_of_whileLive {k : Result} (e : whileLive s k = .next t) : k = .next t := by
  rcases whileLive_cases s k with ⟨-, h⟩ | ⟨r, -, h⟩ | ⟨-, r, -, h⟩
  · exact h.symm.trans e
  · cases h.symm.trans e
  · cases h.symm.trans e

theorem ok_or_unapplied_of_applied {r : Except Halt State} (e : applied s r = .next t) : Unapplied s t ∨ r = .ok t := by
  rcases applied_cases s r with ⟨u, hr, h⟩ | ⟨f, -, h⟩
  · cases h.symm.trans e
    exact .inr hr
  · cases h.symm.trans e
    exact .inl (unapplied_recordHalt f s)

theorem readRegister_ran {n : Nat} {v : Byte} (e : readRegister n v s s = .next t) : Unapplied s t ∨ Ran i s t := by
  replace e := next_of_whileLive e
  split at e
  · cases e
    exact .inr (.accessed rfl (.inl rfl))
  · cases e
    exact .inl (unapplied_unfixedRead _ n s)

theorem execRStatus_ran {n : Nat} (e : execRStatus n s = .next t) : Unapplied s t ∨ Ran (.rStatus n) s t := by
  replace e := next_of_whileLive e
  split at e
  · rename_i size
    cases e
    exact .inr (.accessed rfl (.inr ⟨rfl, by rw [size]⟩))
  · cases e
    exact .inl (unapplied_unfixedRead _ n s)

theorem writeRegister_ran {n : Nat} {u : State} (h : Accessed s u) (request : u.intrq = s.intrq)
    (e : writeRegister n s u = .next t) : Unapplied s t ∨ Ran i s t := by
  rcases ok_or_unapplied_of_applied (next_of_whileLive e) with h' | e
  · exact .inl h'
  · split at e
    · cases e
      exact .inr (.accessed h (.inl request))
    · cases e

theorem commandWrite_ran {code : Byte} (row : code = 0x08 ∨ code = 0x90 → collectsError i s ∧ movesAudio i s)
    (e : applied s (commandWrite code (ataHandler code) s) = .next t) : Unapplied s t ∨ Ran i s t := by
  rcases ok_or_unapplied_of_applied e with h | e
  · exact .inl h
  · rcases commandWrite_cases code (ataHandler code) s with ⟨-, -, e'⟩ | ⟨taken, e'⟩
    · cases e'.symm.trans e
    · exact .inr (.commanded row (ataHandler_commanded taken (e'.symm.trans e)))

theorem runCommand_ran (code : Byte) (row : code = 0x08 ∨ code = 0x90 → collectsError i s ∧ movesAudio i s)
    (e : runCommand code (ataHandler code) s = .next t) : Unapplied s t ∨ Ran i s t :=
  commandWrite_ran row (next_of_whileLive e)

theorem execWCommand_ran {n : Nat} {v : Half} (e : execWCommand n v s = .next t) :
    Unapplied s t ∨ Ran (.wCommand n v) s t := by
  replace e := next_of_whileLive e
  split at e
  · exact commandWrite_ran (fun code => ⟨code, code⟩) e
  · cases e
    exact .inl (unapplied_recordHalt _ s)

theorem execAtaUnknown_ran {code : Byte} (e : execAtaUnknown code s = .next t) :
    Unapplied s t ∨ Ran (.ataUnknown code) s t := by
  rcases ok_or_unapplied_of_applied (next_of_whileLive e) with h | e
  · exact .inl h
  · rcases commandWrite_cases code ataUnknownCode s with ⟨-, -, e'⟩ | ⟨-, e'⟩
    · cases e'.symm.trans e
    · cases e'.symm.trans e
      exact .inr (.commanded (resets := False) nofun (.failed (by decide)))

theorem execRData_ran {n : Nat} (e : execRData n s = .next t) : Unapplied s t ∨ Ran (.rData n) s t := by
  replace e := next_of_whileLive e
  split at e
  next u hu =>
    cases e
    exact .inr (.read rfl hu)
  next f _ =>
    cases e
    exact .inl (unapplied_unfixedRead f n s)

theorem execDmaPull_ran {len : Nat} (e : execDmaPull len s = .next t) : Unapplied s t ∨ Ran (.dmaPull len) s t := by
  replace e := next_of_whileLive e
  split at e
  next u hu =>
    cases e
    exact .inr (.pulled hu)
  next f _ =>
    cases e
    exact .inl (unapplied_unfixedPull f len s)

theorem runPacket_ran {op : SpiOp} {opcode : Byte} {p : Params} {k : Params → Act} (packet : isPacket i = true)
    (leads : Leads op (k p)) (collects : op = .reqError → collectsError i s)
    (plays : positions op ∨ op = .cdOpen → movesAudio i s) (e : runPacket opcode k p s = .next t) :
    Unapplied s t ∨ Ran i s t := by
  replace e := next_of_whileLive e
  split at e
  · rename_i awaited
    rcases ok_or_unapplied_of_applied e with h | e
    · exact .inl h
    · exact .inr (.dispatched awaited.1 collects plays (leads .start e))
  · rename_i elsewhere
    cases e
    exact .inr (.wrote packet elsewhere)

/-- Everything an operation can do, by its constructor. -/
theorem exec_ran (e : exec i s = .next t) : Unapplied s t ∨ Ran i s t := by
  cases i with
  | rData n => exact execRData_ran e
  | rError n | rIntreason n | rSectnum n | rBclow n | rBchigh n | rDrivesel n => exact readRegister_ran e
  | rStatus n => exact execRStatus_ran e
  | wData n v => exact (ok_or_unapplied_of_applied (next_of_whileLive e)).imp_right (.written rfl)
  | wFeatures n v | wSectcount n v | wSectnum n v | wBclow n v | wBchigh n v | wDrivesel n v =>
    exact writeRegister_ran (by rfl) (by rfl) e
  | wCommand n v => exact execWCommand_ran e
  | nop => exact runCommand_ran 0x00 (fun h => absurd h (by decide)) e
  | softReset => exact runCommand_ran 0x08 (fun _ => ⟨trivial, trivial⟩) e
  | execDiag => exact runCommand_ran 0x90 (fun _ => ⟨trivial, trivial⟩) e
  | spiPacket => exact runCommand_ran 0xA0 (fun h => absurd h (by decide)) e
  | identifyDevice => exact runCommand_ran 0xA1 (fun h => absurd h (by decide)) e
  | identify => exact runCommand_ran 0xEC (fun h => absurd h (by decide)) e
  | setFeatures => exact runCommand_ran 0xEF (fun h => absurd h (by decide)) e
  | ataUnknown code => exact execAtaUnknown_ran e
  | testUnit p => exact runPacket_ran rfl (spiTestUnit_leads p) nofun (by simp [positions]) e
  | reqStat p => exact runPacket_ran rfl (spiReqStat_leads p) nofun (by simp [positions]) e
  | reqMode p => exact runPacket_ran rfl (spiReqMode_leads p) nofun (by simp [positions]) e
  | setMode p => exact runPacket_ran rfl (spiSetMode_leads p) nofun (by simp [positions]) e
  | reqError p => exact runPacket_ran rfl (spiReqError_leads p) (fun _ => trivial) (by simp [positions]) e
  | getToc p => exact runPacket_ran rfl (spiGetToc_leads p) nofun (by simp [positions]) e
  | reqSes p => exact runPacket_ran rfl (spiReqSes_leads p) nofun (by simp [positions]) e
  | cdOpen p => exact runPacket_ran rfl (spiCdOpen_leads p) nofun (fun _ => trivial) e
  | cdPlay p => exact runPacket_ran rfl (spiCdPlay_leads p) nofun (fun _ => trivial) e
  | cdSeek p => exact runPacket_ran rfl (spiCdSeek_leads p) nofun (fun _ => trivial) e
  | cdScan p => exact runPacket_ran rfl (spiCdScan_leads p) nofun (fun _ => trivial) e
  | cdRead p => exact runPacket_ran rfl (spiCdRead_leads p) nofun (by simp [positions]) e
  | cdRead2 p => exact runPacket_ran rfl (spiCdRead2_leads p) nofun (by simp [positions]) e
  | getScd p => exact runPacket_ran rfl (spiGetScd_leads p) nofun (by simp [positions]) e
  | spiUnrecognized opcode p => exact runPacket_ran rfl (spiUnrecognizedOpcode_leads p) nofun (by simp [positions]) e
  | dmaAvail =>
    cases next_of_whileLive e
    exact .inr (.accessed rfl (.inl rfl))
  | dmaPull len => exact execDmaPull_ran e
  | cddaAdvance =>
    cases next_of_whileLive e
    exact .inr (.advanced rfl)
  | trayClose =>
    cases next_of_whileLive e
    exact .inr .trayClosed
  | hardReset =>
    cases e
    exact .inr (.poweredOn rfl)

end Operations

end Sys2Proof.Machine
end

section
/-! SUPPORT. The invariant in two halves: `Sound`, the ranges and agreements that hold in the middle of an operation too, and
`Phased`, what each stable state adds. Every procedure keeps the first, and every way of ending gives the second. -/

namespace Sys2Proof.Machine

open Sys2Proof

/-! ## The two halves -/

/-- A PioBuffer inside its capacity with canonical storage (R40, R49). -/
structure PioOk (b : PioBuffer) : Prop where
  cursor : b.cursor ≤ b.size
  size : b.size ≤ 32768
  stored : Memory.wf b.data ∧ Memory.below b.data 65536

/-- A DmaBuffer inside its capacity with canonical storage (R41, R49). -/
structure DmaOk (b : DmaBuffer) : Prop where
  cursor : b.cursor ≤ b.size
  size : b.size ≤ 37632
  stored : Memory.wf b.data ∧ Memory.below b.data 37632

/-- CHECK, the sense triple and the error register agree (R26, R49). -/
structure ErrorOk (check : Bool) (e : Sense) (error : Byte) : Prop where
  checked : check = true ↔ e.key ≠ 0
  nibble : error.extractLsb' 4 4 = e.key
  reserved : error.getLsbD 1 = false ∧ error.getLsbD 3 = false ∧ (error.getLsbD 0 = false ∨ error.getLsbD 2 = false)

/-- The playback state, the two fields of the sector number, the TOC cache and the tray agree (R30, R42, R46, R266). -/
structure DriveOk (c : Cdda) (unit format : BitVec 4) (toc : Option Toc) (tray : Bool) : Prop where
  range : c.status = .playing → c.start.toNat ≤ c.current.toNat ∧ c.current.toNat ≤ c.last.toNat
  scan : c.scan ≠ .none → c.status = .playing
  unitCodes : unit ∈ [unitPause, unitStandby, unitPlay, unitScan, unitOpen, unitNoDisc]
  cached : format = (match toc with | some t => t.discFormat | none => 0)
  valid : ∀ t, toc = some t → tocValid t = true
  stops : tray = true → c.status ≠ .playing ∧ toc = none ∧ unit = unitOpen

/-- What holds in every state of an operation, between its steps too. -/
structure Sound (s : State) : Prop where
  pio : PioOk s.pio
  dma : DmaOk s.dma
  pending : ErrorOk s.check s.sense s.error
  drive : DriveOk s.cdda s.unitStatus s.discFormat s.tocCache s.trayOpen
  status : s.status.getLsbD 1 = false ∧ s.status.getLsbD 2 = false ∧ s.status.getLsbD 5 = false
  reason : s.intReason.extractLsb' 2 6 = 0
  packet : s.packet.b.length = 12 ∧ s.packet.index ≤ 12
  block : s.hwInfo.length = 32
  config : s.cfg.sized
  range : s.readParams.startSector + s.readParams.remaining < 2 ^ 25 ∧ s.readParams.remaining < 2 ^ 24

/-- What a state holds because of the stable state it is in. -/
structure Phased (s : State) : Prop where
  idleStatus : s.state = .waitcmd → s.bsy = false ∧ s.drdy = true ∧ s.drq = false
  drqPhase : s.drq = true ↔ s.state = .waitpacket ∨ s.state = .pioSendData ∨ s.state = .pioGetData
  bsyRead : s.bsy = true ↔ s.state = .readsectorDma
  phaseOpen : s.state = .pioSendData ∨ s.state = .pioGetData → s.pio.cursor < s.pio.size
  packetOpen : s.state = .waitpacket → s.packet.index < 12
  dmaWaiting : s.state = .readsectorDma → s.dma.cursor < s.dma.size
  dmaIdle : s.state = .waitcmd ∨ s.state = .waitpacket → s.dma.cursor = s.dma.size
  stable : s.state.stable = true
  pioDrained : s.state = .waitcmd ∨ s.state = .waitpacket ∨ s.state = .readsectorDma → s.pio.cursor = s.pio.size
  readCleared : s.state = .waitcmd ∨ s.state = .waitpacket → s.readParams = ReadParams.cleared ∧ s.pioLimit = 0
  continuations : (s.state = .pioSendData → s.pio.nextState = .pioEnd ∨ s.pio.nextState = .readsectorPio) ∧
    (s.state = .pioGetData → s.pio.nextState = .processSetMode)
  dmaOwned : (s.state = .pioSendData ∧ s.pio.nextState = .pioEnd) ∨ s.state = .pioGetData → s.dma.cursor = s.dma.size
  limitUsable : s.readingByPio → 2 ≤ s.pioLimit.toNat
  descriptorSized : s.readingByPio ∨ s.state = .readsectorDma → (sectorSize s.cfg s.readParams.sectorType).isSome = true
  batchEven : s.readingByPio → (s.dma.size - s.dma.cursor) % 2 = 0
  readyIdle : s.drdy = true ↔ s.state = .waitcmd
  reasonPhase : (s.state = .waitpacket ∨ s.state = .readsectorDma → s.cod = true ∧ s.io = false) ∧
    (s.state = .pioSendData → s.cod = false ∧ s.io = true) ∧ (s.state = .pioGetData → s.cod = false ∧ s.io = false)

/-- A valid TOC, or none, gives the register a DiscFormat code (R30, R46). -/
theorem DriveOk.formatOk {c : Cdda} {unit format : BitVec 4} {toc : Option Toc} {tray : Bool}
    (h : DriveOk c unit format toc tray) : discFormatOk format = true := by
  rw [h.cached]
  cases toc with
  | none => decide
  | some t => exact tocValid_discFormat t (h.valid t rfl)

theorem Inv.sound {s : State} (h : Inv s) : Sound s where
  pio := ⟨h.pioBounds.1, h.pioBounds.2, h.pioStored⟩
  dma := ⟨h.dmaBounds.1, h.dmaBounds.2, h.dmaStored⟩
  pending := ⟨h.errorAgrees.1, h.errorAgrees.2, h.errorReserved⟩
  drive := ⟨h.playRange, h.scanPlays, h.unitCodes, h.formatCached, h.cacheValid, h.trayStops⟩
  status := h.statusReserved
  reason := h.reasonReserved
  packet := h.packetSize
  block := h.hwInfoSize
  config := h.configSized
  range := h.readRange

theorem Inv.phased {s : State} (h : Inv s) : Phased s :=
  { h with }

theorem inv_of_halves {s : State} (h : Sound s) (p : Phased s) : Inv s :=
  { p with
    pioBounds := ⟨h.pio.cursor, h.pio.size⟩
    dmaBounds := ⟨h.dma.cursor, h.dma.size⟩
    errorAgrees := ⟨h.pending.checked, h.pending.nibble⟩
    playRange := h.drive.range
    statusReserved := h.status
    errorReserved := h.pending.reserved
    reasonReserved := h.reason
    unitCodes := h.drive.unitCodes
    scanPlays := h.drive.scan
    formatCached := h.drive.cached
    formatCodes := h.drive.formatOk
    cacheValid := h.drive.valid
    trayStops := h.drive.stops
    packetSize := h.packet
    hwInfoSize := h.block
    configSized := h.config
    pioStored := h.pio.stored
    dmaStored := h.dma.stored
    readRange := h.range }

/-! ## The condition bits of the named updates -/

section Bits

variable (s : State) (v o : Bool) (k : IrqKind) (i : Nat)

theorem drq_putStatus (hi : i ≠ 3) (h8 : i < 8) : (s.putStatus i v).drq = s.drq := by
  rw [State.drq, putStatus_status, getLsbD_putBit _ _ _ _ h8]
  exact if_neg (Ne.symm hi)

theorem drdy_putStatus (hi : i ≠ 6) (h8 : i < 8) : (s.putStatus i v).drdy = s.drdy := by
  rw [State.drdy, putStatus_status, getLsbD_putBit _ _ _ _ h8]
  exact if_neg (Ne.symm hi)

theorem bsy_putStatus_same : (s.putStatus bsyBit v).bsy = v := by
  rw [State.bsy, putStatus_status, getLsbD_putBit_bsy]
  rfl

theorem drq_putStatus_same : (s.putStatus drqBit v).drq = v := by
  rw [State.drq, putStatus_status, getLsbD_putBit_drq]
  rfl

theorem drdy_putStatus_same : (s.putStatus drdyBit v).drdy = v := by
  rw [State.drdy, putStatus_status, getLsbD_putBit_drdy]
  rfl

theorem cod_putReason (c : Bool) : (s.putReason c o).cod = c := by
  rw [State.cod, putReason_intReason, getLsbD_putBit_io, getLsbD_putBit_cod]
  rfl

theorem io_putReason (c : Bool) : (s.putReason c o).io = o := by
  rw [State.io, putReason_intReason, getLsbD_putBit_io]
  rfl

/-- The bits of `enter(gds_waitcmd)` (R171). -/
theorem enterWaitcmd_bits :
    (enterWaitcmd s).bsy = false ∧ (enterWaitcmd s).drdy = true ∧ (enterWaitcmd s).drq = s.drq :=
  ⟨bsy_putStatus_same _ _, (drdy_putStatus _ _ bsyBit (by decide) (by decide)).trans (drdy_putStatus_same _ _),
    (drq_putStatus _ _ bsyBit (by decide) (by decide)).trans (drq_putStatus _ _ drdyBit (by decide) (by decide))⟩

/-- The bits of a PIO data phase and of the packet phase (R172, R174, R175): DRQ 1, BSY 0. -/
theorem phase_bits (u : State) :
    ((u.putStatus drqBit true).putStatus bsyBit false).bsy = false ∧
    ((u.putStatus drqBit true).putStatus bsyBit false).drq = true ∧
    ((u.putStatus drqBit true).putStatus bsyBit false).drdy = u.drdy :=
  ⟨bsy_putStatus_same _ _, (drq_putStatus _ _ bsyBit (by decide) (by decide)).trans (drq_putStatus_same _ _),
    (drdy_putStatus _ _ bsyBit (by decide) (by decide)).trans (drdy_putStatus _ _ drqBit (by decide) (by decide))⟩

end Bits

/-! ## What each stable state asks for -/

section Phases

variable {s : State}

theorem phased_waitcmd (hs : s.state = .waitcmd) (bits : s.bsy = false ∧ s.drdy = true ∧ s.drq = false)
    (pio : s.pio.cursor = s.pio.size) (dma : s.dma.cursor = s.dma.size)
    (cleared : s.readParams = ReadParams.cleared ∧ s.pioLimit = 0) : Phased s := by
  obtain ⟨bsy, drdy, drq⟩ := bits
  constructor <;> simp [hs, bsy, drdy, drq, pio, dma, cleared, GdState.stable]

theorem phased_waitpacket (hs : s.state = .waitpacket) (bsy : s.bsy = false) (drdy : s.drdy = false) (drq : s.drq = true)
    (reason : s.cod = true ∧ s.io = false) (index : s.packet.index < 12)
    (pio : s.pio.cursor = s.pio.size) (dma : s.dma.cursor = s.dma.size)
    (cleared : s.readParams = ReadParams.cleared ∧ s.pioLimit = 0) : Phased s := by
  constructor <;> simp [hs, bsy, drdy, drq, reason, index, pio, dma, cleared, GdState.stable]

theorem phased_response (hs : s.state = .pioSendData) (next : s.pio.nextState = .pioEnd) (bsy : s.bsy = false)
    (drdy : s.drdy = false) (drq : s.drq = true) (reason : s.cod = false ∧ s.io = true)
    (left : s.pio.cursor < s.pio.size) (dma : s.dma.cursor = s.dma.size) : Phased s := by
  constructor <;> simp [hs, next, bsy, drdy, drq, reason, left, dma, GdState.stable]

theorem phased_chunk (hs : s.state = .pioSendData) (next : s.pio.nextState = .readsectorPio) (bsy : s.bsy = false)
    (drdy : s.drdy = false) (drq : s.drq = true) (reason : s.cod = false ∧ s.io = true)
    (left : s.pio.cursor < s.pio.size) (limit : 2 ≤ s.pioLimit.toNat)
    (sized : (sectorSize s.cfg s.readParams.sectorType).isSome = true) (even : (s.dma.size - s.dma.cursor) % 2 = 0) :
    Phased s := by
  constructor <;> simp [hs, next, bsy, drdy, drq, reason, left, limit, sized, even, GdState.stable]

theorem phased_receive (hs : s.state = .pioGetData) (next : s.pio.nextState = .processSetMode) (bsy : s.bsy = false)
    (drdy : s.drdy = false) (drq : s.drq = true) (reason : s.cod = false ∧ s.io = false)
    (left : s.pio.cursor < s.pio.size) (dma : s.dma.cursor = s.dma.size) : Phased s := by
  constructor <;> simp [hs, next, bsy, drdy, drq, reason, left, dma, GdState.stable]

theorem phased_dma (hs : s.state = .readsectorDma) (bsy : s.bsy = true) (drdy : s.drdy = false) (drq : s.drq = false)
    (reason : s.cod = true ∧ s.io = false) (pio : s.pio.cursor = s.pio.size) (left : s.dma.cursor < s.dma.size)
    (sized : (sectorSize s.cfg s.readParams.sectorType).isSome = true) : Phased s := by
  constructor <;> simp [hs, bsy, drdy, drq, reason, pio, left, sized, GdState.stable]

end Phases

/-! ## Soundness through the shared updates -/

section Soundness

variable {s : State}

/-- The status bits that entering a state leaves alone: CHECK and the three reserved ones (R25). -/
abbrev SameLow (w w' : Byte) : Prop :=
  w'.getLsbD 0 = w.getLsbD 0 ∧ w'.getLsbD 1 = w.getLsbD 1 ∧ w'.getLsbD 2 = w.getLsbD 2 ∧ w'.getLsbD 5 = w.getLsbD 5

theorem sameLow_putBit (w : Byte) (i : Nat) (v : Bool) (hi : i = 3 ∨ i = 4 ∨ i = 6 ∨ i = 7) : SameLow w (putBit w i v) := by
  have kept (j : Nat) (hj : j ≠ i) : (putBit w i v).getLsbD j = w.getLsbD j := by
    rw [getLsbD_putBit _ _ _ _ (by omega), if_neg hj]
  exact ⟨kept 0 (by omega), kept 1 (by omega), kept 2 (by omega), kept 5 (by omega)⟩

theorem SameLow.trans {w w' w'' : Byte} (h : SameLow w w') (h' : SameLow w' w'') : SameLow w w'' :=
  ⟨h'.1.trans h.1, h'.2.1.trans h.2.1, h'.2.2.1.trans h.2.2.1, h'.2.2.2.trans h.2.2.2⟩

theorem sameLow_idle (w : Byte) : SameLow w (putBit (putBit w drdyBit true) bsyBit false) :=
  (sameLow_putBit _ _ _ (by decide)).trans (sameLow_putBit _ _ _ (by decide))

theorem sameLow_phase (w : Byte) : SameLow w (putBit (putBit w drqBit true) bsyBit false) :=
  (sameLow_putBit _ _ _ (by decide)).trans (sameLow_putBit _ _ _ (by decide))

theorem Sound.pending_sameLow (h : Sound s) {t : State} (low : SameLow s.status t.status) :
    ErrorOk t.check s.sense s.error := by
  have checked : t.check = s.check := low.1
  rw [checked]
  exact h.pending

theorem Sound.status_sameLow (h : Sound s) {w : Byte} (low : SameLow s.status w) :
    w.getLsbD 1 = false ∧ w.getLsbD 2 = false ∧ w.getLsbD 5 = false :=
  ⟨low.2.1.trans h.status.1, low.2.2.1.trans h.status.2.1, low.2.2.2.trans h.status.2.2⟩

/-- CoD and IO are no reserved bits (R28). -/
theorem Sound.reason_put (h : Sound s) (c o : Bool) : (putBit (putBit s.intReason codBit c) ioBit o).extractLsb' 2 6 = 0 := by
  have kept : ∀ w : Byte, w.extractLsb' 2 6 = 0 → (putBit (putBit w codBit c) ioBit o).extractLsb' 2 6 = 0 := by
    cases c <;> cases o <;> decide
  exact kept _ h.reason

theorem sound_putStatus (h : Sound s) (i : Nat) (v : Bool) (hi : i = 3 ∨ i = 4 ∨ i = 6 ∨ i = 7) :
    Sound (s.putStatus i v) :=
  have low := sameLow_putBit s.status i v hi
  { h with pending := h.pending_sameLow low, status := h.status_sameLow low }

theorem sound_engaged (h : Sound s) (st : GdState) : Sound (engaged st s) :=
  have low := sameLow_putBit s.status bsyBit true (by decide)
  { h with pending := h.pending_sameLow low, status := h.status_sameLow low }

theorem sound_startPacket (h : Sound s) : Sound (startPacket s) :=
  have low := (sameLow_putBit s.status drqBit false (by decide)).trans (sameLow_putBit _ bsyBit true (by decide))
  { h with pending := h.pending_sameLow low, status := h.status_sameLow low }

theorem sound_acceptCommand (h : Sound s) : Sound (acceptCommand s) :=
  have low := (sameLow_putBit s.status bsyBit true (by decide)).trans (sameLow_putBit _ drdyBit false (by decide))
  { h with pending := h.pending_sameLow low, status := h.status_sameLow low }

theorem sound_enterWaitcmd (h : Sound s) : Sound (enterWaitcmd s) :=
  have low := sameLow_idle s.status
  { h with pending := h.pending_sameLow low, status := h.status_sameLow low }

theorem sound_ataComplete (h : Sound s) (k : IrqKind) : Sound (ataComplete k s) :=
  have low := (sameLow_putBit s.status drqBit false (by decide)).trans (sameLow_idle _)
  { h with pending := h.pending_sameLow low, status := h.status_sameLow low }

theorem sound_enterProcpacketdone (h : Sound s) (k : IrqKind) : Sound (enterProcpacketdone k s) :=
  have low := (((sameLow_putBit s.status drdyBit true (by decide)).trans (sameLow_putBit _ drqBit false (by decide))).trans
    (sameLow_putBit _ bsyBit false (by decide))).trans (sameLow_idle _)
  { h with
    pending := h.pending_sameLow low
    status := h.status_sameLow low
    reason := h.reason_put true true
    range := ⟨show 0 + 0 < 2 ^ 25 by decide, show 0 < 2 ^ 24 by decide⟩ }

theorem sound_openDataPhase (h : Sound s) (st : GdState) (io : Bool) : Sound (openDataPhase st io s) :=
  have low := sameLow_phase s.status
  { h with pending := h.pending_sameLow low, status := h.status_sameLow low, reason := h.reason_put false io }

theorem sound_enterWaitpacket (h : Sound s) : Sound (enterWaitpacket s) :=
  have low := sameLow_phase s.status
  { h with
    pending := h.pending_sameLow low
    status := h.status_sameLow low
    reason := h.reason_put true false
    packet := by simp [Packet.cleared, packetBytes] }

/-- The error register of a failure keeps its reserved bits (R26, R345). -/
theorem errorValue_reserved (key : BitVec 4) (b : ErrorBit) :
    (errorValue key b).getLsbD 1 = false ∧ (errorValue key b).getLsbD 3 = false ∧
    ((errorValue key b).getLsbD 0 = false ∨ (errorValue key b).getLsbD 2 = false) := by
  revert key
  cases b <;> decide

/-- The state in which a failure completes its command (R345). -/
abbrev failing (e : Sense) (b : ErrorBit) (s : State) : State :=
  { s with sense := e, error := errorValue e.key b, status := putBit s.status checkBit true
           pio := { s.pio with cursor := 0, size := 0, nextState := .pioEnd }
           dma := { s.dma with cursor := 0, size := 0 }, readParams := ReadParams.cleared, pioLimit := 0 }

theorem sound_failing (h : Sound s) {e : Sense} (b : ErrorBit) (key : e.key ≠ 0) : Sound (failing e b s) := by
  have kept (j : Nat) (hj : j ≠ 0) : (putBit s.status checkBit true).getLsbD j = s.status.getLsbD j := by
    rw [getLsbD_putBit_check, if_neg hj]
  have checked : (failing e b s).check = true := by
    rw [State.check, getLsbD_putBit_check]
    rfl
  obtain ⟨b1, b2, b5⟩ := h.status
  exact { h with
    pio := ⟨Nat.le_refl 0, Nat.zero_le _, h.pio.stored⟩
    dma := ⟨Nat.le_refl 0, Nat.zero_le _, h.dma.stored⟩
    pending := ⟨⟨fun _ => key, fun _ => checked⟩, errorValue_key e.key b, errorValue_reserved e.key b⟩
    status := ⟨(kept 1 (by decide)).trans b1, (kept 2 (by decide)).trans b2, (kept 5 (by decide)).trans b5⟩
    range := ⟨show 0 + 0 < 2 ^ 25 by decide, show 0 < 2 ^ 24 by decide⟩ }

theorem sound_collectError (h : Sound s) : Sound (collectError s) := by
  have kept (j : Nat) (hj : j ≠ 0) : (putBit s.status checkBit false).getLsbD j = s.status.getLsbD j := by
    rw [getLsbD_putBit_check, if_neg hj]
  have unchecked : (collectError s).check = false := by
    rw [State.check, collectError_status, getLsbD_putBit_check]
    rfl
  obtain ⟨b1, b2, b5⟩ := h.status
  exact { h with
    pending := ⟨by simp [unchecked], show (0#8).extractLsb' 4 4 = 0#4 by decide, show (0#8).getLsbD 1 = false ∧
      (0#8).getLsbD 3 = false ∧ ((0#8).getLsbD 0 = false ∨ (0#8).getLsbD 2 = false) by decide⟩
    status := ⟨(kept 1 (by decide)).trans b1, (kept 2 (by decide)).trans b2, (kept 5 (by decide)).trans b5⟩ }

/-- A new sector number with a unit status and the old DiscFormat serves any playback state it agrees with. -/
theorem sound_putUnit (h : Sound s) {unit : BitVec 4} (d : DriveOk s.cdda unit s.discFormat s.tocCache s.trayOpen) :
    Sound (s.putUnit unit) :=
  { h with drive := by rw [putUnit_unitStatus, putUnit_discFormat]; exact d }

/-! ## The ends of an operation -/

/-- The state in which a command raises its last interrupt (R177). -/
abbrev completing (s : State) : State :=
  { (((({ s with state := .procpacketdone }.putStatus drdyBit true).putReason true true).putStatus drqBit false).putStatus
      bsyBit false) with readParams := ReadParams.cleared, pioLimit := 0 }

theorem inv_enterProcpacketdone (h : Sound s) (k : IrqKind) (pio : s.pio.cursor = s.pio.size)
    (dma : s.dma.cursor = s.dma.size) : Inv (enterProcpacketdone k s) := by
  have drq : (enterProcpacketdone k s).drq = false := by
    rw [State.drq, enterProcpacketdone_status, getLsbD_putBit_bsy, getLsbD_putBit_drdy, getLsbD_putBit_bsy,
      getLsbD_putBit_drq]
    rfl
  obtain ⟨bsy, drdy, -⟩ := enterWaitcmd_bits (raiseIrq k (completing s))
  exact inv_of_halves (sound_enterProcpacketdone h k) (phased_waitcmd rfl ⟨bsy, drdy, drq⟩ pio dma ⟨rfl, rfl⟩)

theorem inv_ataComplete (h : Sound s) (k : IrqKind) (pio : s.pio.cursor = s.pio.size) (dma : s.dma.cursor = s.dma.size)
    (cleared : s.readParams = ReadParams.cleared ∧ s.pioLimit = 0) : Inv (ataComplete k s) := by
  obtain ⟨bsy, drdy, drq⟩ := enterWaitcmd_bits (raiseIrq k (s.putStatus drqBit false))
  exact inv_of_halves (sound_ataComplete h k)
    (phased_waitcmd rfl ⟨bsy, drdy, drq.trans (drq_putStatus_same s false)⟩ pio dma cleared)

theorem inv_raiseFail (h : Sound s) {e : Sense} (b : ErrorBit) (key : e.key ≠ 0) (level : FailLevel) :
    Inv (raiseFail e b level s) := by
  cases level with
  | spi => exact raiseFail_spi e b s ▸ inv_enterProcpacketdone (sound_failing h b key) .error rfl rfl
  | ata => exact raiseFail_ata e b s ▸ inv_ataComplete (sound_failing h b key) .error rfl rfl ⟨rfl, rfl⟩

theorem inv_enterPioEnd (h : Sound s) (pio : s.pio.cursor = s.pio.size) (dma : s.dma.cursor = s.dma.size) :
    Inv (enterPioEnd s) :=
  inv_enterProcpacketdone (sound_putStatus (s := { s with state := .pioEnd }) { h with } drqBit false (by decide)) .complete
    pio dma

theorem inv_readFail (h : Sound s) : Inv (readFail s) := by
  obtain ⟨e, u, key, rfl | rfl, eq⟩ := readFail_cases s
  · rw [eq]
    exact inv_raiseFail h _ key _
  · rw [eq]
    exact inv_raiseFail (s := askedPresent s) { h with } _ key _

/-- The PioBuffer of a response is sound. -/
theorem sound_responding (h : Sound s) (bytes : List Byte) (next : GdState) (fits : bytes.length ≤ 65536) :
    Sound (responding bytes next s) := by
  have hl := evenBytes_length bytes
  have loaded : Sound { s with pio :=
      { data := Memory.load s.pio.data (evenBytes bytes), cursor := 0, size := (bytes.length + 1) / 2, nextState := next } } :=
    { h with
      pio := ⟨Nat.zero_le _, show (bytes.length + 1) / 2 ≤ 32768 by omega,
        Memory.load_wf _ _ h.pio.stored.1, Memory.load_below _ _ _ (by omega) h.pio.stored.2⟩ }
  exact sound_openDataPhase loaded _ _

theorem inv_responding (h : Sound s) {bytes : List Byte} (some : 0 < bytes.length) (fits : bytes.length ≤ 65536)
    (drdy : s.drdy = false) (dma : s.dma.cursor = s.dma.size) : Inv (responding bytes .pioEnd s) := by
  obtain ⟨bsy, drq, ready⟩ := phase_bits s
  exact inv_of_halves (sound_responding h bytes _ fits)
    (phased_response rfl rfl bsy (ready.trans drdy) drq ⟨cod_putReason _ _ _, io_putReason _ _ _⟩
      (show 0 < (bytes.length + 1) / 2 by omega) dma)

theorem inv_enterPioGetData (h : Sound s) (next : s.pio.nextState = .processSetMode) (left : s.pio.cursor < s.pio.size)
    (drdy : s.drdy = false) (dma : s.dma.cursor = s.dma.size) : Inv (enterPioGetData s) := by
  obtain ⟨bsy, drq, ready⟩ := phase_bits s
  exact inv_of_halves (sound_openDataPhase h _ _)
    (phased_receive rfl next bsy (ready.trans drdy) drq ⟨cod_putReason _ _ _, io_putReason _ _ _⟩ left dma)

theorem inv_enterWaitpacket (h : Sound s) (drdy : s.drdy = false) (pio : s.pio.cursor = s.pio.size)
    (dma : s.dma.cursor = s.dma.size) (cleared : s.readParams = ReadParams.cleared ∧ s.pioLimit = 0) :
    Inv (enterWaitpacket s) := by
  obtain ⟨bsy, drq, ready⟩ := phase_bits s
  exact inv_of_halves (sound_enterWaitpacket h) (phased_waitpacket rfl bsy (ready.trans drdy) drq
    ⟨cod_putReason _ _ _, io_putReason _ _ _⟩ (show 0 < 12 by decide) pio dma cleared)

end Soundness

end Sys2Proof.Machine
end

section
/-! SUPPORT. Every operation keeps the invariant: the handlers, the read engine, the ports, the commands and the events. -/

namespace Sys2Proof.Machine

open Sys2Proof

/-! ## A handler at work -/

/-- What holds while a packet's handler works (R173): sound, DRDY and DRQ 0, the reason of the packet phase,
both buffers drained. -/
structure Working (u : State) : Prop where
  sound : Sound u
  drdy : u.drdy = false
  drq : u.drq = false
  reason : u.cod = true ∧ u.io = false
  pio : u.pio.cursor = u.pio.size
  dma : u.dma.cursor = u.dma.size

/-- An awaited packet's handler starts so, whatever bytes the accumulator holds. -/
theorem working_startPacket {s : State} (h : Inv s) (waits : s.state = .waitpacket) {k : Packet}
    (packet : k.b.length = 12 ∧ k.index ≤ 12) : Working (startPacket { s with packet := k }) where
  sound := sound_startPacket (s := { s with packet := k }) { h.sound with packet := packet }
  drdy := by
    have busy : s.drdy = false := by
      rw [← Bool.not_eq_true, h.readyIdle, waits]
      decide
    exact ((drdy_putStatus _ _ bsyBit (by decide) (by decide)).trans
      (drdy_putStatus { s with state := .procpacket, packet := k } _ drqBit (by decide) (by decide))).trans busy
  drq := (drq_putStatus _ _ bsyBit (by decide) (by decide)).trans (drq_putStatus_same _ _)
  reason := h.reasonPhase.1 (.inl waits)
  pio := h.pioDrained (.inr (.inl waits))
  dma := h.dmaIdle (.inr waits)

/-- With the tray closed the playback state needs its range, its scan and a unit-status code. -/
theorem DriveOk.closed {c c' : Cdda} {unit unit' format : BitVec 4} {toc : Option Toc} (h : DriveOk c unit format toc false)
    (range : c'.status = .playing → c'.start.toNat ≤ c'.current.toNat ∧ c'.current.toNat ≤ c'.last.toNat)
    (scan : c'.scan ≠ .none → c'.status = .playing)
    (code : unit' ∈ [unitPause, unitStandby, unitPlay, unitScan, unitOpen, unitNoDisc]) : DriveOk c' unit' format toc false :=
  { h with range := range, scan := scan, unitCodes := code, stops := nofun }

theorem Cdda.inRange_iff (c : Cdda) (f : Fad) :
    c.inRange f = true ↔ c.start.toNat ≤ f.toNat ∧ f.toNat ≤ c.last.toNat := by simp [Cdda.inRange]

section Handler

variable {s u : State}

/-- A playback packet's new CDDA state and unit status. -/
theorem Working.drive (h : Working u) {c : Cdda} {unit : BitVec 4}
    (d : DriveOk c unit u.discFormat u.tocCache u.trayOpen) : Working ({ u with cdda := c }.putUnit unit) :=
  { h with sound := { h.sound with drive := by rw [putUnit_unitStatus, putUnit_discFormat]; exact d } }

theorem Working.putDsc (h : Working u) : Working (u.putStatus dscBit true) :=
  { h with
    sound := sound_putStatus h.sound dscBit true (by decide)
    drdy := (drdy_putStatus u true dscBit (by decide) (by decide)).trans h.drdy
    drq := (drq_putStatus u true dscBit (by decide) (by decide)).trans h.drq }

/-- The unit status after the CDDA state is a code, or as it was (R260). -/
theorem unitFromCdda_cases (u : State) :
    unitFromCdda u = u ∨ ∃ unit ∈ [unitPause, unitStandby, unitPlay, unitScan, unitOpen, unitNoDisc],
      unitFromCdda u = u.putUnit unit := by
  unfold unitFromCdda
  split
  · exact .inr ⟨_, by simp, rfl⟩
  · exact .inr ⟨_, by simp, rfl⟩
  · exact .inr ⟨_, by simp, rfl⟩
  · exact .inr ⟨_, by simp, rfl⟩
  · exact .inl rfl
  · exact .inl rfl

/-- The playback packets keep the drive's state in order (R42, R49). -/
theorem working_plays {v : State} (h : Working u) (closed : u.trayOpen = false) (m : Plays u v) : Working v := by
  have d := h.sound.drive
  rw [closed] at d
  have moved {c : Cdda} {unit : BitVec 4} (d' : DriveOk c unit u.discFormat u.tocCache false) :
      Working ({ u with cdda := c }.putUnit unit) := h.drive (by rw [closed]; exact d')
  cases m with
  | play rep first last range =>
    exact (moved (d.closed (fun _ => ⟨Nat.le_refl _, range⟩) (fun scan => absurd rfl scan) (by decide))).putDsc
  | resume paused inside =>
    rw [Cdda.inRange_iff] at inside
    exact moved (d.closed (fun _ => inside) (fun _ => rfl) (by decide))
  | resumeOutside paused =>
    refine moved (d.closed nofun (fun scan => ?_) (by decide))
    have := d.scan scan
    rw [paused] at this
    cases this
  | seek target inside =>
    have d' (unit : BitVec 4) (code : unit ∈ [unitPause, unitStandby, unitPlay, unitScan, unitOpen, unitNoDisc]) :
        DriveOk { u.cdda with
          current := target
          status := if u.cdda.status = .noInfo then .paused else u.cdda.status } unit u.discFormat u.tocCache false := by
      refine d.closed ?_ ?_ code
      · intro playing
        have was : u.cdda.status = .playing := by
          dsimp only at playing
          split at playing
          · cases playing
          · exact playing
        exact (Cdda.inRange_iff _ _).mp (inside was)
      · intro scan
        have was := d.scan scan
        simp [was]
    rcases unitFromCdda_cases (sought target u) with e | ⟨unit, code, e⟩
    · rw [e]
      have kept : Working { u with cdda := { u.cdda with
          current := target
          status := if u.cdda.status = CddaStatus.noInfo then CddaStatus.paused else u.cdda.status } } :=
        { h with sound := { h.sound with drive := by rw [closed]; exact d' _ d.unitCodes } }
      exact kept.putDsc
    · rw [e]
      exact (moved (d' unit code)).putDsc
  | pause => exact moved (d.closed nofun (fun scan => absurd rfl scan) (by decide))
  | scan target direction inside =>
    rw [Cdda.inRange_iff] at inside
    exact (moved (d.closed (fun _ => inside) (fun _ => rfl) (by decide))).putDsc

/-- Whatever a handler has prepared, it is still at work. -/
theorem working_prepared {op : SpiOp} (h : Working s) (p : Prepared op s u) : Working u := by
  induction p with
  | start => exact h
  | asked _ ih => exact { ih with sound := { ih.sound with } }
  | tocAsked _ ih => exact { ih with sound := { ih.sound with } }
  | @tocKept u toc _ closed valid ih =>
    have d := ih.sound.drive
    have kept : DriveOk u.cdda u.unitStatus toc.discFormat (some toc) u.trayOpen :=
      { d with
        cached := rfl
        valid := fun t ht => by cases ht; exact valid
        stops := fun opened => by rw [closed] at opened; cases opened }
    have format : ((u.asking .getTOC).keepToc toc).discFormat = toc.discFormat := putDiscFormat_discFormat _ _
    have unit : ((u.asking .getTOC).keepToc toc).unitStatus = u.unitStatus := putDiscFormat_unitStatus _ _
    exact { ih with sound := { ih.sound with drive := by rw [format, unit]; exact kept } }
  | @collected u _ _ ih =>
    exact { ih with
      sound := sound_collectError ih.sound
      drdy := (drdy_putStatus _ false checkBit (by decide) (by decide)).trans ih.drdy
      drq := (drq_putStatus _ false checkBit (by decide) (by decide)).trans ih.drq }
  | @opened u _ _ ih =>
    have d := ih.sound.drive
    have stopped : DriveOk { u.cdda with status := .terminated, scan := .none } unitOpen 0 none true :=
      ⟨nofun, fun scan => absurd rfl scan, by decide, rfl, nofun, fun _ => ⟨nofun, rfl, rfl⟩⟩
    have format : (trayOpened u).discFormat = 0 := show (0x06#8).extractLsb' 4 4 = 0 by decide
    have unit : (trayOpened u).unitStatus = unitOpen := show (0x06#8).extractLsb' 0 4 = 6 by decide
    exact { ih with
      sound := { ih.sound with
        pio := ⟨Nat.le_refl 0, Nat.zero_le _, ih.sound.pio.stored⟩
        dma := ⟨Nat.le_refl 0, Nat.zero_le _, ih.sound.dma.stored⟩
        drive := by rw [format, unit]; exact stopped }
      pio := rfl
      dma := rfl }
  | moved _ _ closed m ih => exact working_plays ih closed m

end Handler

/-! ## The SET_MODE block and the read engine -/

section Engine

variable {s t : State}

theorem inv_enterProcessSetMode (h : Sound s) (pio : s.pio.cursor = s.pio.size) (dma : s.dma.cursor = s.dma.size)
    (e : enterProcessSetMode s = .ok t) : Inv t := by
  have engagedSound := sound_engaged h .processSetMode
  rcases enterProcessSetMode_cases s with ⟨-, e'⟩ | ⟨-, e'⟩
  · cases e'.symm.trans e
    exact inv_raiseFail engagedSound _ (by decide) _
  · cases e'.symm.trans e
    exact inv_enterPioEnd (s := modeStored s) { engagedSound with block := by simp } pio dma

/-- The size of a refill: an even number of bytes within the buffer, some where sectors remain (R283, R91). -/
theorem refill_size {size : Nat} {bytes : List Byte} (r : Refills s size bytes) :
    min 16 s.readParams.remaining * size ≤ 37632 ∧ min 16 s.readParams.remaining * size % 2 = 0 ∧
    (s.readParams.remaining ≠ 0 → 0 < min 16 s.readParams.remaining * size) := by
  obtain ⟨low, high, even⟩ := sectorSize_ok _ _ _ r.1
  refine ⟨?_, by simp [Nat.mul_mod, even], fun some => Nat.mul_pos (by omega) (by omega)⟩
  calc min 16 s.readParams.remaining * size ≤ 16 * 2352 := Nat.mul_le_mul (Nat.min_le_left _ _) high
    _ = 37632 := rfl

theorem sound_refilled (h : Sound s) {size : Nat} {bytes : List Byte} (r : Refills s size bytes) :
    Sound (refilled (min 16 s.readParams.remaining) size bytes s) := by
  obtain ⟨fits, -, -⟩ := refill_size r
  have hr := h.range
  exact { h with
    dma := ⟨Nat.zero_le _, fits, Memory.load_wf _ _ h.dma.stored.1,
      Memory.load_below _ _ _ (by rw [r.2]; exact fits) h.dma.stored.2⟩
    range := by
      show s.readParams.startSector + min 16 s.readParams.remaining +
        (s.readParams.remaining - min 16 s.readParams.remaining) < 2 ^ 25 ∧
        s.readParams.remaining - min 16 s.readParams.remaining < 2 ^ 24
      omega }

/-- A chunk of the waiting bytes opens a phase that can go on (R291, R292). -/
theorem inv_chunkOffered (h : Sound s) (drdy : s.drdy = false) (left : s.dma.cursor < s.dma.size)
    (limit : 2 ≤ s.pioLimit.toNat) (sized : (sectorSize s.cfg s.readParams.sectorType).isSome = true)
    (even : (s.dma.size - s.dma.cursor) % 2 = 0) : Inv (chunkOffered s) := by
  have hlimit := chunkLimit_eq s
  have hbits := s.pioLimit.isLt
  have hn : 0 < min (chunkLimit s) (dmaUnread s) ∧ min (chunkLimit s) (dmaUnread s) ≤ 65536 ∧
      s.dma.cursor + min (chunkLimit s) (dmaUnread s) ≤ s.dma.size ∧
      (s.dma.size - (s.dma.cursor + min (chunkLimit s) (dmaUnread s))) % 2 = 0 := by
    unfold dmaUnread
    omega
  unfold chunkOffered
  generalize min (chunkLimit s) (dmaUnread s) = n at hn
  obtain ⟨some, fits, within, rest⟩ := hn
  have taken : Sound { s with dma := { s.dma with cursor := s.dma.cursor + n } } :=
    { h with dma := ⟨within, h.dma.size, h.dma.stored⟩ }
  have length : (Memory.slice s.dma.data s.dma.cursor n).length = n := Memory.slice_length _ _ _
  obtain ⟨bsy, drq, ready⟩ := phase_bits s
  exact inv_of_halves (sound_responding taken _ _ (by rw [length]; exact fits))
    (phased_chunk rfl rfl bsy (ready.trans drdy) drq ⟨cod_putReason _ _ _, io_putReason _ _ _⟩
      (show 0 < ((Memory.slice s.dma.data s.dma.cursor n).length + 1) / 2 by rw [length]; omega) limit sized rest)

/-- The PIO path of the engine, entered with a drained PioBuffer (R291). -/
theorem inv_enterReadsectorPio (h : Sound s) (drdy : s.drdy = false) (pio : s.pio.cursor = s.pio.size)
    (limit : s.dma.cursor ≠ s.dma.size ∨ s.readParams.remaining ≠ 0 → 2 ≤ s.pioLimit.toNat)
    (sized : (sectorSize s.cfg s.readParams.sectorType).isSome = true) (even : (s.dma.size - s.dma.cursor) % 2 = 0)
    (e : enterReadsectorPio s = .ok t) : Inv t := by
  have entered := sound_engaged h .readsectorPio
  have drdy' : (engaged .readsectorPio s).drdy = false :=
    (drdy_putStatus { s with state := .readsectorPio } true bsyBit (by decide) (by decide)).trans drdy
  rcases enterReadsectorPio_cases e with ⟨dma, -, rfl⟩ | ⟨some, size, bytes, r, rfl⟩ | rfl | ⟨left, rfl⟩
  · exact inv_enterPioEnd entered pio dma
  · have r' : Refills (engaged .readsectorPio s) size bytes := r
    obtain ⟨-, even', filled⟩ := refill_size r
    exact inv_chunkOffered (sound_refilled entered r') drdy' (filled some) (limit (.inr some)) sized even'
  · exact inv_readFail (s := (engaged .readsectorPio s).asking _) { entered with }
  · exact inv_chunkOffered entered drdy' (Nat.lt_of_le_of_ne h.dma.cursor left) (limit (.inl left)) sized even

/-- The DMA path of the engine goes on waiting, refills, completes or fails (R295). -/
theorem inv_dmaService (h : Sound s) (hs : s.state = .readsectorDma) (bsy : s.bsy = true) (drdy : s.drdy = false)
    (drq : s.drq = false) (reason : s.cod = true ∧ s.io = false) (pio : s.pio.cursor = s.pio.size)
    (sized : (sectorSize s.cfg s.readParams.sectorType).isSome = true) (e : dmaService s = .ok t) : Inv t := by
  rcases dmaService_cases e with ⟨dma, rfl⟩ | ⟨some, size, bytes, r, rfl⟩ | rfl | ⟨left, rfl⟩
  · exact inv_enterProcpacketdone h _ pio dma
  · obtain ⟨-, -, filled⟩ := refill_size r
    exact inv_of_halves (sound_refilled h r) (phased_dma hs bsy drdy drq reason pio (filled some) sized)
  · exact inv_readFail (s := s.asking _) { h with }
  · exact inv_of_halves h
      (phased_dma hs bsy drdy drq reason pio (Nat.lt_of_le_of_ne h.dma.cursor left) sized)

/-- A read begins with ranges that its operands keep (R37, R139). -/
theorem sound_readBegun (h : Sound s) (p : Params) {count : Nat} (range : count < 2 ^ 24) : Sound (readBegun p count s) := by
  have hstart := p.readStart.isLt
  exact { h with
    dma := ⟨Nat.le_refl 0, Nat.zero_le _, h.dma.stored⟩
    range := ⟨show p.readStart.toNat + count < 2 ^ 25 by omega, range⟩ }

/-- However a packet ends, the invariant holds. -/
theorem inv_answered {op : SpiOp} (h : Working s) (a : Answered op s t) : Inv t := by
  cases a with
  | done p =>
    have w := working_prepared h p
    exact inv_enterProcpacketdone w.sound _ w.pio w.dma
  | failed key p => exact inv_raiseFail (working_prepared h p).sound _ key _
  | responds some fits p =>
    have w := working_prepared h p
    exact inv_responding w.sound some fits w.drdy w.dma
  | @receives u m n some fits p =>
    have w := working_prepared h p
    have sound : Sound (blockExpected m n u) :=
      { w.sound with pio := ⟨Nat.zero_le _, show (n + 1) / 2 ≤ 32768 by omega, w.sound.pio.stored⟩ }
    exact inv_enterPioGetData sound rfl (show 0 < (n + 1) / 2 by omega) w.drdy w.dma
  | @stores u _ m p e =>
    have w := working_prepared h p
    have sound : Sound (blockExpected m 0 u) :=
      { w.sound with pio := ⟨Nat.le_refl 0, Nat.zero_le _, w.sound.pio.stored⟩ }
    exact inv_enterProcessSetMode sound rfl w.dma e
  | @readsByDma u _ par count dma range sized p e =>
    have w := working_prepared h p
    have drdy : (engaged .readsectorDma (readBegun par count u)).drdy = false :=
      (drdy_putStatus { readBegun par count u with state := .readsectorDma } true bsyBit (by decide) (by decide)).trans w.drdy
    have drq : (engaged .readsectorDma (readBegun par count u)).drq = false :=
      (drq_putStatus { readBegun par count u with state := .readsectorDma } true bsyBit (by decide) (by decide)).trans w.drq
    exact inv_dmaService (sound_engaged (sound_readBegun w.sound par range) .readsectorDma) rfl (bsy_putStatus_same _ _) drdy
      drq w.reason w.pio sized e
  | @readsByPio u _ par count pio range sized limit p e =>
    have w := working_prepared h p
    have usable : 0 ≠ 0 ∨ count ≠ 0 → 2 ≤ u.byteCount.toNat := fun some => limit (by omega)
    exact inv_enterReadsectorPio (sound_readBegun w.sound par range) w.drdy w.pio usable sized rfl e

end Engine

end Sys2Proof.Machine
end

section
/-! SUPPORT. Every operation keeps the invariant, continued: the DATA port, the commands, the resets and the events; and the
two statements on the invariant, settled. -/

namespace Sys2Proof.Machine

open Sys2Proof

section Operations

variable {i : Instr} {s t : State}

/-! ## The DATA port -/

/-- Outside `gds_waitcmd` DRDY is 0 (R191). -/
theorem Inv.drdy_false (h : Inv s) (busy : s.state ≠ .waitcmd) : s.drdy = false := by
  rw [← Bool.not_eq_true, h.readyIdle]
  exact busy

/-- The rest of a data phase once its last word has moved (R86). -/
theorem drained_facts (h : Inv s) {u : State} (sound : Sound u) (status : u.status = s.status) (busy : s.state ≠ .waitcmd) :
    Sound (u.putStatus drqBit false) ∧ (u.putStatus drqBit false).drdy = false := by
  refine ⟨sound_putStatus sound _ _ (by decide), (drdy_putStatus u _ drqBit (by decide) (by decide)).trans ?_⟩
  rw [State.drdy, status]
  exact h.drdy_false busy

theorem inv_hostReadData {n : Nat} (h : Inv s) (e : hostReadData n s = .ok t) : Inv t := by
  obtain ⟨phase, -, left, e⟩ := hostReadData_ok e
  have sound : Sound (wordRead s) := { h.sound with pio := { h.sound.pio with cursor := left } }
  rcases endPhaseIfDrained_cases (wordRead s) with ⟨drained, e'⟩ | ⟨more, e'⟩
  · replace e := e'.symm.trans e
    obtain ⟨sound', drdy⟩ := drained_facts h sound rfl (by rw [phase]; decide)
    rcases h.continuations.1 phase with next | next
    · have next' : (wordRead s).pio.nextState = .pioEnd := next
      rw [next'] at e
      cases e
      exact inv_enterPioEnd sound' drained (h.dmaOwned (.inl ⟨phase, next⟩))
    · have next' : (wordRead s).pio.nextState = .readsectorPio := next
      rw [next'] at e
      have reading : s.readingByPio := ⟨phase, next⟩
      exact inv_enterReadsectorPio sound' drdy drained (fun _ => h.limitUsable reading) (h.descriptorSized (.inl reading))
        (h.batchEven reading) e
  · cases e'.symm.trans e
    have within : s.pio.cursor + 1 < s.pio.size := Nat.lt_of_le_of_ne left more
    exact inv_of_halves sound { h.phased with
      phaseOpen := fun _ => within
      pioDrained := fun other => by simp [phase] at other }

/-- Packet bytes leave an accumulator of twelve bytes (R36). -/
@[simp] theorem packetBytesAfter_length (b : List Byte) (i n : Nat) (v : Half) : (packetBytesAfter b i n v).length = b.length := by
  unfold packetBytesAfter
  split <;> simp

theorem inv_hostWriteData {n : Nat} {v : Half} (h : Inv s) (e : hostWriteData n v s = .ok t) : Inv t := by
  have bytes : (bytesCollected n v s).packet.b.length = 12 := by simp [h.packetSize.1]
  rcases hostWriteData_ok e with ⟨waits, -, -, later, rfl⟩ | ⟨waits, -, -, twelfth, e⟩ | ⟨phase, left, e⟩
  · exact inv_of_halves { h.sound with packet := ⟨bytes, Nat.le_of_lt later⟩ } { h.phased with packetOpen := fun _ => later }
  · exact inv_answered (working_startPacket h waits ⟨bytes, Nat.le_of_eq twelfth⟩) (spiHandler_leads _ _ .start e)
  · have word : 2 * s.pio.cursor + 1 < 65536 := by
      have := h.pioBounds
      omega
    have sound : Sound (wordStored v s) := { h.sound with
      pio := ⟨left, h.pioBounds.2, Memory.write_wf _ _ _ (Memory.write_wf _ _ _ h.pioStored.1),
        Memory.write_below _ _ _ _ word (Memory.write_below _ _ _ _ (by omega) h.pioStored.2)⟩ }
    rcases endPhaseIfDrained_cases (wordStored v s) with ⟨drained, e'⟩ | ⟨more, e'⟩
    · replace e := e'.symm.trans e
      obtain ⟨sound', -⟩ := drained_facts h sound rfl (by rw [phase]; decide)
      have next : (wordStored v s).pio.nextState = .processSetMode := h.continuations.2 phase
      rw [next] at e
      exact inv_enterProcessSetMode sound' drained (h.dmaOwned (.inr phase)) e
    · cases e'.symm.trans e
      have within : s.pio.cursor + 1 < s.pio.size := Nat.lt_of_le_of_ne left more
      exact inv_of_halves sound { h.phased with
        phaseOpen := fun _ => within
        pioDrained := fun other => by simp [phase] at other }

/-- An operation that is not applied changes nothing the invariant speaks of (R350, R351). -/
theorem inv_unapplied (h : Inv s) (u : Unapplied s t) : Inv t := by
  rw [u]
  exact { h with }

theorem inv_writeWords (ws : List Half) (h : Inv s) : Inv (writeWords ws s) := by
  induction ws generalizing s with
  | nil => exact h
  | cons v rest ih =>
    unfold writeWords
    split
    next u hu => exact ih (inv_hostWriteData h hu)
    next f _ => exact inv_unapplied h (unapplied_recordHalt f s)

/-! ## The resets (R370, R371) -/

/-- The unit status asked anew, with nothing playing and no TOC (R373). -/
theorem sound_unitRefresh (h : Sound s) (still : s.cdda.status ≠ .playing) (empty : s.tocCache = none) :
    Sound (unitRefresh s) := by
  have d := h.drive
  rcases unitRefresh_cases s with ⟨-, e⟩ | ⟨closed, e⟩
  · rw [e]
    exact sound_putUnit h { d with unitCodes := by decide, stops := fun _ => ⟨still, empty, rfl⟩ }
  · rw [e]
    refine sound_putUnit (s := askedPresent s) { h with } { d with unitCodes := ?_, stops := fun opened => ?_ }
    · cases s.answers.present <;> decide
    · exact absurd (closed.symm.trans opened) (by decide)

/-- `unit_refresh()` writes the sector number and asks; nothing else changes (R373). -/
theorem unitRefresh_frame (s : State) :
    unitRefresh s = { s with sectNum := (unitRefresh s).sectNum, answers := (unitRefresh s).answers,
                             obs := { s.obs with queries := (unitRefresh s).obs.queries } } := by
  rcases unitRefresh_cases s with ⟨-, e⟩ | ⟨-, e⟩ <;> (rw [e]; rfl)

/-- Both buffers and the fields a soft reset writes, before the unit status is asked (R371). -/
abbrev softCleared (s : State) : State :=
  { s with
    status := 0x00, error := 0x00, intReason := 0x00, intrq := false, packet := Packet.cleared
    readParams := ReadParams.cleared, pioLimit := 0
    pio := { s.pio with cursor := 0, size := 0, nextState := .pioEnd }, dma := { s.dma with cursor := 0, size := 0 }
    cdda := Cdda.home, sense := { key := 0, asc := 0, ascq := 0 }, setMode := { offset := 0, length := 0 }
    sectNum := (s.putDiscFormat 0).sectNum, tocCache := none }

theorem softResetState_eq (s : State) : softResetState s = enterWaitcmd (unitRefresh (softCleared s)) := rfl

/-- No disc known, nothing playing: the drive's fields agree whatever the tray and the answer (R50). -/
theorem driveOk_home {unit : BitVec 4} {tray : Bool} (code : unit ∈ [unitPause, unitStandby, unitPlay, unitScan, unitOpen,
    unitNoDisc]) (opened : tray = true → unit = unitOpen) : DriveOk Cdda.home unit 0 none tray :=
  ⟨nofun, fun scan => absurd rfl scan, code, rfl, nofun, fun h => ⟨nofun, rfl, opened h⟩⟩

/-- The two status values a reset writes have neither CHECK nor a reserved bit (R25, R50). -/
theorem resetStatus_bits : ∀ w : Byte, w = 0x00 ∨ w = 0x40 →
    w.getLsbD 0 = false ∧ w.getLsbD 1 = false ∧ w.getLsbD 2 = false ∧ w.getLsbD 5 = false := by decide

/-- The idle status after a reset is DRDY alone (R50, R171). -/
theorem readyStatus_bits : ∀ w : Byte, w = 0x40 ∨ w = putBit (putBit 0x00 drdyBit true) bsyBit false →
    w.getLsbD bsyBit = false ∧ w.getLsbD drdyBit = true ∧ w.getLsbD drqBit = false := by decide

/-- No error pending (R43, R50). -/
theorem errorOk_clear {status : Byte} (unchecked : status.getLsbD 0 = false) :
    ErrorOk (status.getLsbD checkBit) { key := 0, asc := 0, ascq := 0 } 0x00 :=
  ⟨by rw [show status.getLsbD checkBit = false from unchecked]; decide, by decide, by decide⟩

theorem sound_softCleared (h : Sound s) : Sound (softCleared s) := by
  have d := h.drive
  have format : (softCleared s).discFormat = 0 := putDiscFormat_discFormat s 0
  have unit : (softCleared s).unitStatus = s.unitStatus := putDiscFormat_unitStatus s 0
  exact { h with
    pio := ⟨Nat.le_refl 0, Nat.zero_le _, h.pio.stored⟩
    dma := ⟨Nat.le_refl 0, Nat.zero_le _, h.dma.stored⟩
    pending := errorOk_clear (resetStatus_bits _ (.inl rfl)).1
    drive := by
      rw [format, unit]
      exact driveOk_home d.unitCodes fun opened => (d.stops opened).2.2
    status := (resetStatus_bits _ (.inl rfl)).2
    reason := show (0x00#8).extractLsb' 2 6 = 0 by decide
    packet := ⟨rfl, Nat.zero_le _⟩
    range := ⟨show 0 + 0 < 2 ^ 25 by decide, show 0 < 2 ^ 24 by decide⟩ }

theorem inv_softReset (h : Inv s) : Inv (raiseIrq .complete (softResetState s)) := by
  have sound : Sound (softResetState s) :=
    sound_enterWaitcmd (sound_unitRefresh (sound_softCleared h.sound) nofun rfl)
  rw [softResetState_eq] at sound ⊢
  rw [unitRefresh_frame] at sound ⊢
  exact inv_of_halves { sound with } (phased_waitcmd rfl (readyStatus_bits _ (.inr rfl)) rfl rfl ⟨rfl, rfl⟩)

/-- The power-on values of every field, before the unit status is asked (R370). -/
abbrev hardCleared (s : State) : State :=
  { s with
    state := .waitcmd, status := 0x40, error := 0x00, features := 0x00, intReason := 0x00, sectCount := 0x00
    sectNum := (s.putDiscFormat 0).sectNum, byteCount := 0x0000, driveSel := 0x00, intrq := false, packet := Packet.cleared
    readParams := ReadParams.cleared, pioLimit := 0, dmaEnable := false, transferMode := 0x00
    pio := { data := [], cursor := 0, size := 0, nextState := .pioEnd }, dma := { data := [], cursor := 0, size := 0 }
    cdda := Cdda.home, sense := { key := 0, asc := 0, ascq := 0 }, hwInfo := s.cfg.hwInfoReset
    setMode := { offset := 0, length := 0 }, tocCache := none, trayOpen := false, misuse := none, refused := none }

theorem hardResetState_eq (s : State) : hardResetState s = unitRefresh (hardCleared s) := rfl

theorem sound_hardCleared (h : Sound s) : Sound (hardCleared s) := by
  have format : (hardCleared s).discFormat = 0 := putDiscFormat_discFormat s 0
  have unit : (hardCleared s).unitStatus = s.unitStatus := putDiscFormat_unitStatus s 0
  exact {
    pio := ⟨Nat.le_refl 0, Nat.zero_le _, reset_memory_wf.1, reset_memory_wf.2.2.1⟩
    dma := ⟨Nat.le_refl 0, Nat.zero_le _, reset_memory_wf.2.1, reset_memory_wf.2.2.2⟩
    pending := errorOk_clear (resetStatus_bits _ (.inr rfl)).1
    drive := by
      rw [format, unit]
      exact driveOk_home h.drive.unitCodes nofun
    status := (resetStatus_bits _ (.inr rfl)).2
    reason := show (0x00#8).extractLsb' 2 6 = 0 by decide
    packet := ⟨rfl, Nat.zero_le _⟩
    block := h.config.2
    config := h.config
    range := ⟨show 0 + 0 < 2 ^ 25 by decide, show 0 < 2 ^ 24 by decide⟩ }

theorem inv_hardReset (h : Inv s) : Inv (hardResetState s) := by
  have sound := sound_unitRefresh (sound_hardCleared h.sound) nofun rfl
  rw [hardResetState_eq]
  rw [unitRefresh_frame] at sound ⊢
  exact inv_of_halves sound (phased_waitcmd rfl (readyStatus_bits _ (.inl rfl)) rfl rfl ⟨rfl, rfl⟩)

/-! ## The commands (R200) -/

theorem inv_commanded {resets : Prop} (h : Inv s) (c : Commanded resets (acceptCommand s) t) : Inv t := by
  have sound := sound_acceptCommand h.sound
  have drdy : (acceptCommand s).drdy = false := drdy_putStatus_same _ _
  cases c with
  | done idle => exact inv_ataComplete sound _ (h.pioDrained (.inl idle)) (h.dmaIdle (.inl idle)) (h.readCleared (.inl idle))
  | @modeSet mode dma idle =>
    exact inv_ataComplete (s := { acceptCommand s with transferMode := mode, dmaEnable := dma }) { sound with } _
      (h.pioDrained (.inl idle)) (h.dmaIdle (.inl idle)) (h.readCleared (.inl idle))
  | reset => exact inv_softReset (s := s) h
  | packet idle =>
    exact inv_enterWaitpacket sound drdy (h.pioDrained (.inl idle)) (h.dmaIdle (.inl idle)) (h.readCleared (.inl idle))
  | empty idle => exact inv_enterProcpacketdone sound _ (h.pioDrained (.inl idle)) (h.dmaIdle (.inl idle))
  | responds idle some fits => exact inv_responding sound some fits drdy (h.dmaIdle (.inl idle))
  | failed key => exact inv_raiseFail sound _ key _

/-! ## The events (R145) -/

theorem inv_closeTray (h : Inv s) : Inv (closeTray s) := by
  unfold closeTray
  split
  · rename_i opened
    have d := h.sound.drive
    obtain ⟨still, empty, -⟩ := d.stops opened
    have format : ({ s with trayOpen := false }.dropToc).discFormat = 0 := putDiscFormat_discFormat _ 0
    have unit : ({ s with trayOpen := false }.dropToc).unitStatus = s.unitStatus := putDiscFormat_unitStatus _ 0
    have closed : Sound ({ s with trayOpen := false }.dropToc) := { h.sound with
      drive := by
        rw [format, unit]
        exact { d with cached := rfl, valid := nofun, stops := nofun } }
    have sound := sound_unitRefresh closed still rfl
    rw [unitRefresh_frame] at sound ⊢
    exact inv_of_halves sound { h.phased with }
  · exact h

theorem inv_withDrive (h : Inv s) {c : Cdda} {unit : BitVec 4}
    (d : DriveOk c unit s.discFormat s.tocCache s.trayOpen) : Inv ({ s with cdda := c }.putUnit unit) :=
  inv_of_halves { h.sound with drive := by rw [putUnit_unitStatus, putUnit_discFormat]; exact d } { h.phased with }

theorem inv_withCdda (h : Inv s) {c : Cdda} (d : DriveOk c s.unitStatus s.discFormat s.tocCache s.trayOpen) :
    Inv { s with cdda := c } :=
  inv_of_halves { h.sound with drive := d } { h.phased with }

/-- One frame on stays inside the range it has not reached the end of (R312). -/
theorem fad_succ_toNat {f last : Fad} (h : f.toNat < last.toNat) : (f + 1).toNat = f.toNat + 1 := by
  have := last.isLt
  bv_omega

/-- One frame back stays above the start it has not reached (R312). -/
theorem fad_pred_toNat {f start : Fad} (h : start.toNat < f.toNat) : (f - 1).toNat = f.toNat - 1 := by
  have := f.isLt
  bv_omega

theorem inv_cddaStep (h : Inv s) : Inv (cddaStep s) := by
  have d := h.sound.drive
  unfold cddaStep
  split
  · rename_i playing
    obtain ⟨low, high⟩ := d.range playing
    have closed : s.trayOpen = false := by
      rw [← Bool.not_eq_true]
      exact fun opened => (d.stops opened).1 playing
    rw [closed] at d
    have forward : Inv (advanceForward s) := by
      unfold advanceForward
      extract_lets c cur
      have inside : s.cdda.start.toNat ≤ cur.toNat ∧ cur.toNat ≤ s.cdda.last.toNat := by
        unfold cur c
        split
        · rename_i before
          rw [fad_succ_toNat before]
          omega
        · exact ⟨low, high⟩
      split
      · split
        · exact inv_withCdda h (by
            rw [closed]
            exact d.closed (fun _ => ⟨Nat.le_refl _, Nat.le_trans low high⟩) (fun _ => playing) d.unitCodes)
        · exact inv_withDrive h (by
            rw [closed]
            exact d.closed nofun (fun scan => absurd rfl scan) (by decide))
      · exact inv_withCdda h (by
          rw [closed]
          exact d.closed (fun _ => inside) (fun _ => playing) d.unitCodes)
    split
    · unfold advanceReverse
      extract_lets c cur
      have inside : s.cdda.start.toNat ≤ cur.toNat ∧ cur.toNat ≤ s.cdda.last.toNat := by
        unfold cur c
        split
        · rename_i after
          rw [fad_pred_toNat after]
          omega
        · exact ⟨low, high⟩
      split
      · exact inv_withDrive h (by
          rw [closed]
          exact d.closed nofun (fun scan => absurd rfl scan) (by decide))
      · exact inv_withCdda h (by
          rw [closed]
          exact d.closed (fun _ => inside) (fun _ => playing) d.unitCodes)
    · exact forward
    · exact forward
  · exact h

theorem inv_dmaPullBytes {len : Nat} (h : Inv s) (e : dmaPullBytes len s = .ok t) : Inv t := by
  obtain ⟨phase, within, e⟩ := dmaPullBytes_ok e
  have cursor : s.dma.cursor + len ≤ s.dma.size := by
    have := h.dmaBounds.1
    omega
  have sound : Sound ({ s with dma := { s.dma with cursor := s.dma.cursor + len } }.returning
      (.bytes (Memory.slice s.dma.data s.dma.cursor len))) :=
    { h.sound with dma := { h.sound.dma with cursor := cursor } }
  have busy : s.state ≠ .waitcmd := by rw [phase]; decide
  have drq : s.drq = false := by
    rw [← Bool.not_eq_true, h.drqPhase, phase]
    decide
  exact inv_dmaService sound phase (h.bsyRead.mpr phase) (h.drdy_false busy) drq (h.reasonPhase.1 (.inr phase))
    (h.pioDrained (.inr (.inr phase))) (h.descriptorSized (.inr phase)) e

/-- Every operation keeps the invariant, by what it does. -/
theorem inv_exec (h : Inv s) (e : exec i s = .next t) : Inv t := by
  rcases exec_ran e with u | r
  · exact inv_unapplied h u
  · cases r with
    | accessed a =>
      rw [a]
      exact { h with }
    | read _ e => exact inv_hostReadData h e
    | written _ e => exact inv_hostWriteData h e
    | commanded _ c => exact inv_commanded h c
    | dispatched waits _ _ a =>
      exact inv_answered (working_startPacket h waits ⟨rfl, Nat.le_refl 12⟩) a
    | wrote => exact inv_writeWords _ h
    | pulled e => exact inv_dmaPullBytes h e
    | advanced => exact inv_cddaStep h
    | trayClosed => exact inv_closeTray h
    | poweredOn => exact inv_hardReset h

end Operations

/-- Settles O4: with an operation waiting the step is that operation, which keeps the invariant; else nothing changes. -/
theorem everyStepKeepsTheInvariant : Obligations.EveryStepKeepsTheInvariant := by
  intro s t h e
  cases hin : s.inbox with
  | nil =>
    cases (step_of_inbox_nil s hin).symm.trans e
    exact h
  | cons x rest =>
    cases hd : decode x.record with
    | ok i =>
      have taken : Inv (takeInput x rest s) := { h with }
      exact inv_exec taken ((step_of_decode_ok s x rest i hin hd).symm.trans e)
    | error why => cases (step_of_decode_error s x rest why hin hd).symm.trans e

/-- The reset state in any configuration with its lengths has the invariant, whatever waits. -/
theorem inv_startState (c : Config) (ops : List Input) (sized : c.sized) : Inv (startState c ops) := by
  have sound : Sound (startState c ops) := {
    pio := ⟨Nat.le_refl 0, Nat.zero_le _, reset_memory_wf.1, reset_memory_wf.2.2.1⟩
    dma := ⟨Nat.le_refl 0, Nat.zero_le _, reset_memory_wf.2.1, reset_memory_wf.2.2.2⟩
    pending := errorOk_clear (resetStatus_bits _ (.inr rfl)).1
    drive := by
      have format : (startState c ops).discFormat = 0 := show (0x07#8).extractLsb' 4 4 = 0 by decide
      rw [format]
      exact driveOk_home (show (0x07#8).extractLsb' 0 4 ∈ _ by decide) nofun
    status := (resetStatus_bits _ (.inr rfl)).2
    reason := show (0x00#8).extractLsb' 2 6 = 0 by decide
    packet := ⟨rfl, Nat.zero_le _⟩
    block := sized.2
    config := sized
    range := ⟨show 0 + 0 < 2 ^ 25 by decide, show 0 < 2 ^ 24 by decide⟩ }
  exact inv_of_halves sound (phased_waitcmd rfl (readyStatus_bits _ (.inl rfl)) rfl rfl ⟨rfl, rfl⟩)

/-- Settles O5: the reset state is the start state of the default configuration, and the invariant does not speak of the
queue, the answers or the observation. -/
theorem startStatesHaveTheInvariant : Obligations.StartStatesHaveTheInvariant := by
  have default : Config.default.sized := ⟨by simp [Config.default], rfl⟩
  refine ⟨inv_startState Config.default [] default, inv_startState, ?_, fun s ops h => { h with }⟩
  intro now saved h same
  exact { h with
    configSized := same ▸ h.configSized
    descriptorSized := fun reads => same ▸ h.descriptorSized reads }

end Sys2Proof.Machine
end

section
/-! SUPPORT. What an operation does to the interrupts, the pending error, the hardware-info block and the CDDA state (R44, R280,
R341, R346): one relation for the middle of an operation, one for its end, each followed through the same procedures. -/

namespace Sys2Proof.Machine

open Sys2Proof

/-! ## The relations -/

/-- The sense triple, the error register and CHECK are as they were (R346). -/
def SameError (s t : State) : Prop := t.sense = s.sense ∧ t.error = s.error ∧ t.check = s.check

/-- All three are clear (R236, R370). -/
def ErrorClear (t : State) : Prop := t.sense = { key := 0, asc := 0, ascq := 0 } ∧ t.error = 0x00 ∧ t.check = false

/-- A failure is recorded and has been signalled (R345). -/
def FailureShown (t : State) : Prop := t.sense.key ≠ 0 ∧ t.check = true ∧ IrqKind.error ∈ t.obs.irqs

/-- The hardware-info block keeps its length and every byte SET_MODE does not write (R44). -/
def FixedBytes (s t : State) : Prop :=
  s.hwInfo.length = 32 → t.hwInfo.length = 32 ∧ ∀ k, modeByteWritable k = false → t.hwInfo.getD k 0 = s.hwInfo.getD k 0

/-- Between the steps of an operation that began in `s`: no interrupt yet, and the error collected only if `collects`, the CDDA
state moved only if `plays`. -/
structure Quiet (collects plays : Prop) (s u : State) : Prop where
  requests : u.obs.irqs = s.obs.irqs ∧ u.intrq = s.intrq
  pending : SameError s u ∨ (collects ∧ ErrorClear u)
  block : FixedBytes s u
  audio : plays ∨ u.cdda = s.cdda
  record : u.misuse = s.misuse ∧ u.refused = s.refused

/-- At the end of such an operation: one interrupt or none, the error as before, or a failure's, or collected. -/
structure Ended (collects plays : Prop) (s t : State) : Prop where
  requests : (∃ k, t.obs.irqs = s.obs.irqs ++ [k] ∧ t.intrq = true) ∨ (t.obs.irqs = s.obs.irqs ∧ t.intrq = s.intrq)
  pending : SameError s t ∨ FailureShown t ∨ (collects ∧ ErrorClear t)
  block : FixedBytes s t
  audio : plays ∨ t.cdda = s.cdda
  record : t.misuse = s.misuse ∧ t.refused = s.refused

theorem FixedBytes.refl (s : State) : FixedBytes s s := fun h => ⟨h, fun _ _ => rfl⟩

theorem FixedBytes.trans {s t u : State} (h : FixedBytes s t) (h' : FixedBytes t u) : FixedBytes s u := fun length =>
  have ⟨length', kept⟩ := h length
  have ⟨length'', kept'⟩ := h' length'
  ⟨length'', fun k fixed => (kept' k fixed).trans (kept k fixed)⟩

section Frames

variable {c p : Prop} {s u t : State}

theorem Quiet.refl (s : State) : Quiet c p s s :=
  ⟨⟨rfl, rfl⟩, .inl ⟨rfl, rfl, rfl⟩, .refl s, .inr rfl, ⟨rfl, rfl⟩⟩

theorem Quiet.ended (h : Quiet c p s u) : Ended c p s u :=
  { h with requests := .inr h.requests, pending := h.pending.imp_right .inr }

theorem Quiet.pending_sameLow (h : Quiet c p s u) {v : State} (low : SameLow u.status v.status) (sense : v.sense = u.sense)
    (error : v.error = u.error) : SameError s v ∨ (c ∧ ErrorClear v) := by
  have check : v.check = u.check := low.1
  have pending := h.pending
  unfold SameError ErrorClear at *
  rwa [sense, error, check]

theorem Quiet.putStatus (h : Quiet c p s u) (i : Nat) (v : Bool) (hi : i = 3 ∨ i = 4 ∨ i = 6 ∨ i = 7) :
    Quiet c p s (u.putStatus i v) :=
  { h with pending := h.pending_sameLow (sameLow_putBit _ i v hi) rfl rfl }

theorem Quiet.engaged (h : Quiet c p s u) (st : GdState) : Quiet c p s (engaged st u) :=
  { h with pending := h.pending_sameLow (sameLow_putBit _ bsyBit true (by decide)) rfl rfl }

theorem Quiet.startPacket (h : Quiet c p s u) : Quiet c p s (startPacket u) :=
  have low := (sameLow_putBit u.status drqBit false (by decide)).trans (sameLow_putBit _ bsyBit true (by decide))
  { h with pending := h.pending_sameLow low rfl rfl }

theorem Quiet.acceptCommand (h : Quiet c p s u) : Quiet c p s (acceptCommand u) :=
  have low := (sameLow_putBit u.status bsyBit true (by decide)).trans (sameLow_putBit _ drdyBit false (by decide))
  { h with pending := h.pending_sameLow low rfl rfl }

theorem Quiet.enterWaitcmd (h : Quiet c p s u) : Quiet c p s (enterWaitcmd u) :=
  { h with pending := h.pending_sameLow (sameLow_idle _) rfl rfl }

theorem Quiet.enterWaitpacket (h : Quiet c p s u) : Quiet c p s (enterWaitpacket u) :=
  { h with pending := h.pending_sameLow (sameLow_phase _) rfl rfl }

/-! ## The ends of an operation -/

/-- One interrupt more than before (R341). -/
theorem Quiet.raised (h : Quiet c p s u) (k : IrqKind) {t : State} (shown : t.obs.irqs = u.obs.irqs ++ [k])
    (request : t.intrq = true) : ∃ k, t.obs.irqs = s.obs.irqs ++ [k] ∧ t.intrq = true :=
  ⟨k, by rw [shown, h.requests.1], request⟩

theorem ended_enterProcpacketdone (h : Quiet c p s u) (k : IrqKind) : Ended c p s (enterProcpacketdone k u) :=
  have low := (((sameLow_putBit u.status drdyBit true (by decide)).trans (sameLow_putBit _ drqBit false (by decide))).trans
    (sameLow_putBit _ bsyBit false (by decide))).trans (sameLow_idle _)
  { h with
    requests := .inl (h.raised k rfl rfl)
    pending := (h.pending_sameLow (v := enterProcpacketdone k u) low rfl rfl).imp_right .inr }

theorem ended_ataComplete (h : Quiet c p s u) (k : IrqKind) : Ended c p s (ataComplete k u) :=
  have low := (sameLow_putBit u.status drqBit false (by decide)).trans (sameLow_idle _)
  { h with
    requests := .inl (h.raised k rfl rfl)
    pending := (h.pending_sameLow (v := ataComplete k u) low rfl rfl).imp_right .inr }

theorem ended_openDataPhase (h : Quiet c p s u) (st : GdState) (io : Bool) : Ended c p s (openDataPhase st io u) :=
  { h with
    requests := .inl (h.raised .dataRequest rfl rfl)
    pending := (h.pending_sameLow (v := openDataPhase st io u) (sameLow_phase _) rfl rfl).imp_right .inr }

theorem ended_enterPioEnd (h : Quiet c p s u) : Ended c p s (enterPioEnd u) :=
  ended_enterProcpacketdone
    (Quiet.putStatus (u := { u with state := .pioEnd }) { h with } drqBit false (by decide)) .complete

theorem ended_responding (h : Quiet c p s u) (bytes : List Byte) (next : GdState) : Ended c p s (responding bytes next u) :=
  ended_openDataPhase (u := { u with pio :=
    { data := Memory.load u.pio.data (evenBytes bytes), cursor := 0, size := (bytes.length + 1) / 2, nextState := next } })
    { h with } .pioSendData true

/-- CHECK stays set through the completion of a failed packet (R345). -/
theorem failing_check (e : Sense) (b : ErrorBit) (u : State) : (failing e b u).check = true := by
  rw [State.check, getLsbD_putBit_check]
  rfl

theorem ended_raiseFail (h : Quiet c p s u) {e : Sense} (b : ErrorBit) (key : e.key ≠ 0) (level : FailLevel) :
    Ended c p s (raiseFail e b level u) := by
  have checked := failing_check e b u
  cases level with
  | spi =>
    have low := (((sameLow_putBit (failing e b u).status drdyBit true (by decide)).trans
      (sameLow_putBit _ drqBit false (by decide))).trans (sameLow_putBit _ bsyBit false (by decide))).trans (sameLow_idle _)
    rw [raiseFail_spi]
    exact { h with
      requests := .inl (h.raised .error rfl rfl)
      pending := .inr (.inl ⟨key, low.1.trans checked, List.mem_append_right _ (List.mem_singleton.mpr rfl)⟩) }
  | ata =>
    have low := (sameLow_putBit (failing e b u).status drqBit false (by decide)).trans (sameLow_idle _)
    rw [raiseFail_ata]
    exact { h with
      requests := .inl (h.raised .error rfl rfl)
      pending := .inr (.inl ⟨key, low.1.trans checked, List.mem_append_right _ (List.mem_singleton.mpr rfl)⟩) }

theorem ended_readFail (h : Quiet c p s u) : Ended c p s (readFail u) := by
  obtain ⟨e, v, key, rfl | rfl, eq⟩ := readFail_cases u
  · rw [eq]
    exact ended_raiseFail h _ key _
  · rw [eq]
    exact ended_raiseFail (u := askedPresent u) { h with } _ key _

theorem ended_chunkOffered (h : Quiet c p s u) : Ended c p s (chunkOffered u) :=
  ended_responding (u := { u with dma := { u.dma with cursor := u.dma.cursor + min (chunkLimit u) (dmaUnread u) } })
    { h with } _ _

/-! ## The engine and the SET_MODE block -/

theorem ended_enterReadsectorPio (h : Quiet c p s u) (e : enterReadsectorPio u = .ok t) : Ended c p s t := by
  have entered := h.engaged .readsectorPio
  rcases enterReadsectorPio_cases e with ⟨-, -, rfl⟩ | ⟨-, size, bytes, -, rfl⟩ | rfl | ⟨-, rfl⟩
  · exact ended_enterPioEnd entered
  · exact ended_chunkOffered (u := refilled (min 16 u.readParams.remaining) size bytes (engaged .readsectorPio u))
      { entered with }
  · exact ended_readFail (u := (engaged .readsectorPio u).asking _) { entered with }
  · exact ended_chunkOffered entered

theorem ended_dmaService (h : Quiet c p s u) (e : dmaService u = .ok t) : Ended c p s t := by
  rcases dmaService_cases e with ⟨-, rfl⟩ | ⟨-, size, bytes, -, rfl⟩ | rfl | ⟨-, rfl⟩
  · exact ended_enterProcpacketdone h _
  · exact Quiet.ended { h with }
  · exact ended_readFail (u := u.asking _) { h with }
  · exact h.ended

theorem ended_enterReadsectorDma (h : Quiet c p s u) (e : enterReadsectorDma u = .ok t) : Ended c p s t :=
  ended_dmaService (h.engaged .readsectorDma) e

/-- Byte `k` of the block as SET_MODE leaves it. -/
theorem modeStored_getD (u : State) (k : Nat) (hk : k < 32) :
    (modeStored u).hwInfo.getD k 0 = modeByteAfter u u.setMode.offset.toNat u.setMode.length.toNat k := by
  simp [List.getD, hk]

/-- A stored SET_MODE block writes the writable bytes only (R233). -/
theorem fixedBytes_modeStored (u : State) : FixedBytes u (modeStored u) := by
  intro length
  refine ⟨by simp, fun k fixed => ?_⟩
  rcases Nat.lt_or_ge k 32 with hk | hk
  · rw [modeStored_getD u k hk, modeByteAfter, if_neg (by simp [fixed])]
  · have short : (modeStored u).hwInfo.length ≤ k := by simpa using hk
    rw [List.getD_eq_default _ _ short, List.getD_eq_default _ _ (length ▸ hk)]

theorem ended_enterProcessSetMode (h : Quiet c p s u) (e : enterProcessSetMode u = .ok t) : Ended c p s t := by
  have entered := h.engaged .processSetMode
  rcases enterProcessSetMode_cases u with ⟨-, e'⟩ | ⟨-, e'⟩
  · cases e'.symm.trans e
    exact ended_raiseFail entered _ (by decide) _
  · cases e'.symm.trans e
    exact ended_enterPioEnd (u := modeStored u) { entered with block := h.block.trans (fixedBytes_modeStored u) }

/-! ## The packets -/

/-- The playback packets move the CDDA state and touch nothing else that is followed here. -/
theorem quiet_plays {v : State} (h : Quiet c p s u) (plays : p) (m : Plays u v) : Quiet c p s v := by
  cases m with
  | play | scan => exact { h with
      pending := h.pending_sameLow (sameLow_putBit _ dscBit true (by decide)) rfl rfl, audio := .inl plays }
  | resume | resumeOutside | pause => exact { h with audio := .inl plays }
  | seek target inside =>
    have moved : Quiet c p s (sought target u) := { h with
      pending := h.pending_sameLow (sameLow_putBit _ dscBit true (by decide)) rfl rfl, audio := .inl plays }
    rcases unitFromCdda_cases (sought target u) with e | ⟨unit, -, e⟩
    · rw [e]
      exact moved
    · rw [e]
      exact { moved with }

theorem quiet_prepared {op : SpiOp} {v : State} (collects : op = .reqError → c) (plays : positions op ∨ op = .cdOpen → p)
    (h : Quiet c p s u) (prepared : Prepared op u v) : Quiet c p s v := by
  induction prepared with
  | start => exact h
  | asked _ ih | tocAsked _ ih | tocKept _ _ _ ih => exact { ih with }
  | @collected v row _ ih =>
    have unchecked : (collectError v).check = false := by
      rw [State.check, collectError_status, getLsbD_putBit_check]
      rfl
    exact { ih with pending := .inr ⟨collects row, rfl, rfl, unchecked⟩ }
  | opened row _ ih => exact { ih with audio := .inl (plays (.inr row)) }
  | moved row _ _ m ih => exact quiet_plays ih (plays (.inl row)) m

theorem ended_answered {op : SpiOp} (collects : op = .reqError → c) (plays : positions op ∨ op = .cdOpen → p)
    (h : Quiet c p s u) (a : Answered op u t) : Ended c p s t := by
  have prepared {v : State} (pre : Prepared op u v) : Quiet c p s v := quiet_prepared collects plays h pre
  cases a with
  | done pre => exact ended_enterProcpacketdone (prepared pre) _
  | failed key pre => exact ended_raiseFail (prepared pre) _ key _
  | responds _ _ pre => exact ended_responding (prepared pre) _ _
  | @receives v m n _ _ pre =>
    exact ended_openDataPhase (u := blockExpected m n v) { prepared pre with } _ _
  | @stores v _ m pre e => exact ended_enterProcessSetMode (u := blockExpected m 0 v) { prepared pre with } e
  | @readsByDma v _ par count _ _ _ pre e =>
    exact ended_enterReadsectorDma (u := readBegun par count v) { prepared pre with } e
  | @readsByPio v _ par count _ _ _ _ pre e =>
    exact ended_enterReadsectorPio (u := readBegun par count v) { prepared pre with } e

/-- The check of a SET_MODE block ends the command, either way (R233). -/
theorem enterProcessSetMode_idle (e : enterProcessSetMode u = .ok t) : t.state = .waitcmd := by
  rcases enterProcessSetMode_cases u with ⟨-, e'⟩ | ⟨-, e'⟩
  · cases e'.symm.trans e
    rfl
  · cases e'.symm.trans e
    rfl

/-- A packet leaves the packet phase, whatever it does. -/
theorem answered_leaves {op : SpiOp} (a : Answered op u t) : t.state ≠ .waitpacket := by
  have readFail_leaves (v : State) : (readFail v).state ≠ .waitpacket := by
    obtain ⟨e, w, -, -, eq⟩ := readFail_cases v
    rw [eq, raiseFail_spi]
    exact nofun
  cases a with
  | done | failed | responds | receives => exact nofun
  | stores _ e =>
    rw [enterProcessSetMode_idle e]
    exact nofun
  | readsByDma _ _ _ _ e =>
    rcases dmaService_cases e with ⟨-, rfl⟩ | ⟨-, size, bytes, -, rfl⟩ | rfl | ⟨-, rfl⟩
    · exact nofun
    · exact nofun
    · exact readFail_leaves _
    · exact nofun
  | readsByPio _ _ _ _ _ e =>
    rcases enterReadsectorPio_cases e with ⟨-, -, rfl⟩ | ⟨-, size, bytes, -, rfl⟩ | rfl | ⟨-, rfl⟩
    · exact nofun
    · exact nofun
    · exact readFail_leaves _
    · exact nofun

/-! ## The DATA port -/

/-- Entering a state (R170); only the packet dispatch can collect the error or move the CDDA state. -/
theorem ended_enter {st : GdState} (dispatch : st = .procpacket → c ∧ p) (h : Quiet c p s u) (e : enter st u = .ok t) :
    Ended c p s t := by
  cases st with
  | waitcmd =>
    cases e
    exact h.enterWaitcmd.ended
  | waitpacket =>
    cases e
    exact h.enterWaitpacket.ended
  | procpacket =>
    obtain ⟨hc, hp⟩ := dispatch rfl
    exact ended_answered (fun _ => hc) (fun _ => hp) h.startPacket (spiHandler_leads _ _ .start e)
  | pioSendData | pioGetData =>
    cases e
    exact ended_openDataPhase h _ _
  | pioEnd =>
    cases e
    exact ended_enterPioEnd h
  | procpacketdone =>
    cases e
    exact ended_enterProcpacketdone h _
  | readsectorPio => exact ended_enterReadsectorPio h e
  | readsectorDma => exact ended_enterReadsectorDma h e
  | processSetMode => exact ended_enterProcessSetMode h e

theorem ended_endPhaseIfDrained (dispatch : u.pio.nextState = .procpacket → c ∧ p) (h : Quiet c p s u)
    (e : endPhaseIfDrained u = .ok t) : Ended c p s t := by
  rcases endPhaseIfDrained_cases u with ⟨-, e'⟩ | ⟨-, e'⟩
  · exact ended_enter dispatch (h.putStatus drqBit false (by decide)) (e'.symm.trans e)
  · cases e'.symm.trans e
    exact h.ended

theorem ended_hostReadData {n : Nat} (dispatch : s.state = .pioSendData → s.pio.nextState = .procpacket → c ∧ p)
    (e : hostReadData n s = .ok t) : Ended c p s t := by
  obtain ⟨phase, -, -, e⟩ := hostReadData_ok e
  exact ended_endPhaseIfDrained (u := wordRead s) (dispatch phase) { Quiet.refl s with } e

/-- The packet begun in the accumulator may collect the error, or move the CDDA state, only as allowed. -/
def PacketAllowed (collects plays : Prop) (s : State) : Prop :=
  (spiOp (s.packet.b.getD 0 0) = .reqError → collects) ∧
  (positions (spiOp (s.packet.b.getD 0 0)) ∨ spiOp (s.packet.b.getD 0 0) = .cdOpen → plays)

/-- Later bytes of a packet leave its opcode. -/
theorem bytesCollected_opcode (n : Nat) (v : Half) (begun : s.packet.index ≠ 0) :
    (bytesCollected n v s).packet.b.getD 0 0 = s.packet.b.getD 0 0 := by
  show (packetBytesAfter s.packet.b s.packet.index n v).getD 0 0 = _
  unfold packetBytesAfter
  split <;> simp [List.getD, begun]

theorem ended_hostWriteData {n : Nat} {v : Half} (dispatch : s.state = .pioGetData → s.pio.nextState = .procpacket → c ∧ p)
    (allowed : s.state = .waitpacket → PacketAllowed c p s) (e : hostWriteData n v s = .ok t) : Ended c p s t := by
  rcases hostWriteData_ok e with ⟨-, -, -, -, rfl⟩ | ⟨waits, -, small, twelfth, e⟩ | ⟨phase, -, e⟩
  · exact Quiet.ended { Quiet.refl s with }
  · obtain ⟨collects, plays⟩ := allowed waits
    have collected : Quiet c p s (bytesCollected n v s) := { Quiet.refl s with }
    have a : Answered (spiOp (s.packet.b.getD 0 0)) (startPacket (bytesCollected n v s)) t := by
      have opcode := bytesCollected_opcode (s := s) n v (by omega)
      rw [← opcode]
      exact spiHandler_leads _ _ .start e
    exact ended_answered collects plays collected.startPacket a
  · exact ended_endPhaseIfDrained (u := wordStored v s) (dispatch phase) { Quiet.refl s with } e

/-! ## The commands and the events -/

/-- A soft reset clears the error and the CDDA state and raises its one interrupt (R202, R371). -/
theorem ended_softReset (h : Quiet c p s u) (collects : c) (plays : p) :
    Ended c p s (raiseIrq .complete (softResetState u)) := by
  have unchecked : ∀ w : Byte, w = putBit (putBit 0x00 drdyBit true) bsyBit false → w.getLsbD checkBit = false := by decide
  rw [softResetState_eq, unitRefresh_frame]
  exact { h with
    requests := .inl (h.raised .complete rfl rfl)
    pending := .inr (.inr ⟨collects, rfl, rfl, unchecked _ rfl⟩)
    audio := .inl plays }

theorem ended_commanded {resets : Prop} (row : resets → c ∧ p) (cmd : Commanded resets (acceptCommand s) t) :
    Ended c p s t := by
  have h : Quiet c p s (acceptCommand s) := (Quiet.refl s).acceptCommand
  cases cmd with
  | done => exact ended_ataComplete h _
  | @modeSet mode dma _ =>
    exact ended_ataComplete (u := { acceptCommand s with transferMode := mode, dmaEnable := dma }) { h with } _
  | reset code => exact ended_softReset h (row code).1 (row code).2
  | packet => exact h.enterWaitpacket.ended
  | empty => exact ended_enterProcpacketdone h _
  | responds => exact ended_responding h _ _
  | failed key => exact ended_raiseFail h _ key _

theorem ended_dmaPullBytes {len : Nat} (e : dmaPullBytes len s = .ok t) : Ended c p s t := by
  obtain ⟨-, -, e⟩ := dmaPullBytes_ok e
  exact ended_dmaService (u := { s with dma := { s.dma with cursor := s.dma.cursor + len } }.returning
    (.bytes (Memory.slice s.dma.data s.dma.cursor len))) { Quiet.refl s with } e

/-- The advance step writes the CDDA state and the sector number alone (R310). -/
theorem cddaStep_frame (s : State) : cddaStep s = { s with cdda := (cddaStep s).cdda, sectNum := (cddaStep s).sectNum } := by
  have reverse (s : State) :
      advanceReverse s = { s with cdda := (advanceReverse s).cdda, sectNum := (advanceReverse s).sectNum } := by
    unfold advanceReverse
    extract_lets c cur
    split <;> rfl
  have forward (s : State) :
      advanceForward s = { s with cdda := (advanceForward s).cdda, sectNum := (advanceForward s).sectNum } := by
    unfold advanceForward
    extract_lets c cur
    split
    · split <;> rfl
    · rfl
  unfold cddaStep
  split
  · split
    · exact reverse s
    · exact forward s
    · exact forward s
  · rfl

theorem quiet_cddaStep (plays : p) : Quiet c p s (cddaStep s) := by
  rw [cddaStep_frame]
  exact { (Quiet.refl s : Quiet c p s s) with audio := .inl plays }

theorem quiet_closeTray : Quiet c p s (closeTray s) := by
  unfold closeTray
  split
  · rw [unitRefresh_frame]
    exact { Quiet.refl s with }
  · exact .refl s

end Frames

end Sys2Proof.Machine
end

section
/-! SUPPORT. What whole operations keep, a packet taken as its writes included; and the statements on the interrupts, the pending
error, the hardware-info block and the CDDA state, settled. -/

namespace Sys2Proof.Machine

open Sys2Proof

/-- The relation of an operation's end without the count of interrupts, so that one operation can follow another. -/
structure Kept (collects plays : Prop) (s t : State) : Prop where
  shown : s.obs.irqs <+: t.obs.irqs
  pending : SameError s t ∨ FailureShown t ∨ (collects ∧ ErrorClear t)
  block : FixedBytes s t
  audio : plays ∨ t.cdda = s.cdda

section Operations

variable {c p : Prop} {i : Instr} {s t u : State}

theorem Ended.kept (h : Ended c p s t) : Kept c p s t where
  shown := by
    rcases h.requests with ⟨k, e, -⟩ | ⟨e, -⟩
    · rw [e]
      exact List.prefix_append _ _
    · rw [e]
  pending := h.pending
  block := h.block
  audio := h.audio

theorem Kept.trans (h : Kept c p s t) (h' : Kept c p t u) : Kept c p s u where
  shown := h.shown.trans h'.shown
  pending := by
    rcases h'.pending with ⟨sense, error, check⟩ | later
    · rcases h.pending with ⟨sense', error', check'⟩ | ⟨key, checked, irq⟩ | ⟨hc, sense', error', check'⟩
      · exact .inl ⟨sense.trans sense', error.trans error', check.trans check'⟩
      · exact .inr (.inl ⟨by rw [sense]; exact key, check.trans checked, h'.shown.subset irq⟩)
      · exact .inr (.inr ⟨hc, sense.trans sense', error.trans error', check.trans check'⟩)
    · exact .inr later
  block := h.block.trans h'.block
  audio := by
    rcases h.audio with hp | e
    · exact .inl hp
    · exact h'.audio.imp_right fun e' => e'.trans e

theorem kept_unapplied (h : Unapplied s t) : Kept c p s t := by
  rw [h]
  exact { (Quiet.refl s : Quiet c p s s).ended.kept with }

theorem kept_accessed (h : Accessed s t) : Kept c p s t := by
  rw [h]
  exact { (Quiet.refl s : Quiet c p s s).ended.kept with }

/-! ## A packet taken as its writes (log entry 12) -/

/-- What the writes of a packet rest on: collecting the error and moving the CDDA state are allowed anyway, or no data phase goes
on into a dispatch and a packet begun in the accumulator is an allowed one. -/
def WritesAllowed (collects plays : Prop) (s : State) : Prop :=
  (collects ∧ plays) ∨ (Inv s ∧ (s.state = .waitpacket → s.packet.index ≠ 0 ∧ PacketAllowed collects plays s))

/-- Under the invariant a data phase does not go on into a dispatch (R190). -/
theorem Inv.no_dispatch (h : Inv s) (phase : s.state = .pioSendData ∨ s.state = .pioGetData) :
    s.pio.nextState ≠ .procpacket := by
  rcases phase with phase | phase
  · rcases h.continuations.1 phase with next | next <;> rw [next] <;> decide
  · rw [h.continuations.2 phase]
    decide

/-- One word of a packet keeps what the next one rests on. -/
theorem kept_hostWriteData {n : Nat} {v : Half} (allowed : WritesAllowed c p s) (e : hostWriteData n v s = .ok t) :
    Kept c p s t ∧ WritesAllowed c p t := by
  rcases allowed with ⟨hc, hp⟩ | ⟨inv, begun⟩
  · exact ⟨(ended_hostWriteData (fun _ _ => ⟨hc, hp⟩) (fun _ => ⟨fun _ => hc, fun _ => hp⟩) e).kept, .inl ⟨hc, hp⟩⟩
  · have ended : Ended c p s t := ended_hostWriteData (fun phase next => absurd next (inv.no_dispatch (.inr phase)))
      (fun waits => (begun waits).2) e
    refine ⟨ended.kept, .inr ⟨inv_hostWriteData inv e, fun waits' => ?_⟩⟩
    rcases hostWriteData_ok e with ⟨waits, -, -, -, rfl⟩ | ⟨-, -, -, -, run⟩ | ⟨phase, -, run⟩
    · obtain ⟨some, opcode⟩ := begun waits
      refine ⟨show s.packet.index + n ≠ 0 by omega, ?_⟩
      unfold PacketAllowed at *
      rwa [bytesCollected_opcode n v some]
    · exact absurd waits' (answered_leaves (spiHandler_leads _ _ .start run))
    · rcases endPhaseIfDrained_cases (wordStored v s) with ⟨-, e'⟩ | ⟨-, e'⟩
      · replace run := e'.symm.trans run
        have next : (wordStored v s).pio.nextState = .processSetMode := inv.continuations.2 phase
        rw [next] at run
        exact absurd ((enterProcessSetMode_idle run).symm.trans waits') nofun
      · cases e'.symm.trans run
        exact absurd (phase.symm.trans waits') nofun

theorem kept_writeWords (ws : List Half) (allowed : WritesAllowed c p s) : Kept c p s (writeWords ws s) := by
  induction ws generalizing s with
  | nil => exact (Quiet.refl s).ended.kept
  | cons v rest ih =>
    unfold writeWords
    split
    next u hu =>
      obtain ⟨kept, allowed'⟩ := kept_hostWriteData allowed hu
      exact kept.trans (ih allowed')
    next f _ => exact kept_unapplied (unapplied_recordHalt f s)

/-! ## The operations -/

/-- The opcodes whose handlers collect the error or write the CDDA state (R125). -/
theorem spiOp_movers (b : Byte) :
    (spiOp b = .reqError → b = 0x13) ∧
    (positions (spiOp b) ∨ spiOp b = .cdOpen → b ∈ [0x16#8, 0x20#8, 0x21#8, 0x22#8]) := by
  revert b
  decide

/-- A packet elsewhere may collect the error, or write the CDDA state, if the packet begun in the accumulator may. -/
theorem packetAllowed_of_isPacket (packet : isPacket i = true) (waits : s.state = .waitpacket) (begun : s.packet.index ≠ 0) :
    PacketAllowed (collectsError i s) (movesAudio i s) s := by
  obtain ⟨isReqError, isMover⟩ := spiOp_movers (s.packet.b.getD 0 0)
  have collects (h : s.packet.b.getD 0 0 = 0x13) : collectsError i s := by
    cases i with
    | reqError => trivial
    | testUnit | reqStat | reqMode | setMode | getToc | reqSes | cdOpen | cdPlay | cdSeek | cdScan | cdRead | cdRead2 | getScd
    | spiUnrecognized => exact ⟨packet, waits, h, begun⟩
    | _ => exact absurd packet Bool.false_ne_true
  have plays (h : s.packet.b.getD 0 0 ∈ [0x16#8, 0x20#8, 0x21#8, 0x22#8]) : movesAudio i s := by
    cases i with
    | cdOpen | cdPlay | cdSeek | cdScan => trivial
    | testUnit | reqStat | reqMode | setMode | reqError | getToc | reqSes | cdRead | cdRead2 | getScd | spiUnrecognized =>
      exact ⟨packet, waits, begun, h⟩
    | _ => exact absurd packet Bool.false_ne_true
  exact ⟨fun h => collects (isReqError h), fun h => plays (isMover h)⟩

/-- An operation that is neither a packet taken elsewhere nor the power-on reset ends as one operation. -/
theorem ended_ran (collects : collectsError i s → c) (plays : movesAudio i s → p) (free : (c ∧ p) ∨ Inv s)
    (notReset : i ≠ .hardReset) (r : Ran i s t) :
    Ended c p s t ∨ (Accessed s t ∧ (t.intrq = s.intrq ∨ (t.intrq = false ∧ i = .rStatus 1))) ∨
    (isPacket i = true ∧ ¬ (s.state = .waitpacket ∧ s.packet.index = 0) ∧ ∃ ws, t = writeWords ws s) := by
  have dispatch (phase : s.state = .pioSendData ∨ s.state = .pioGetData) (next : s.pio.nextState = .procpacket) : c ∧ p :=
    free.resolve_right fun inv => inv.no_dispatch phase next
  cases r with
  | accessed a request => exact .inr (.inl ⟨a, request⟩)
  | read _ e => exact .inl (ended_hostReadData (fun phase => dispatch (.inl phase)) e)
  | written op e =>
    subst op
    obtain ⟨isReqError, isMover⟩ := spiOp_movers (s.packet.b.getD 0 0)
    exact .inl (ended_hostWriteData (fun phase => dispatch (.inr phase)) (fun waits =>
      ⟨fun h => collects ⟨waits, isReqError h⟩, fun h => plays ⟨waits, isMover h⟩⟩) e)
  | commanded row h => exact .inl (ended_commanded (fun code => (row code).imp collects plays) h)
  | dispatched _ hc hp a =>
    exact .inl (ended_answered (fun h => collects (hc h)) (fun h => plays (hp h))
      (Quiet.startPacket (u := { s with packet := Packet.full _ _ }) { Quiet.refl s with }) a)
  | wrote packet elsewhere => exact .inr (.inr ⟨packet, elsewhere, _, rfl⟩)
  | pulled e => exact .inl (ended_dmaPullBytes e)
  | advanced op =>
    subst op
    exact .inl (quiet_cddaStep (plays trivial)).ended
  | trayClosed => exact .inl quiet_closeTray.ended
  | poweredOn op => exact absurd op notReset

/-- Every operation but the power-on reset, a packet elsewhere included. -/
theorem kept_exec (collects : collectsError i s → c) (plays : movesAudio i s → p) (free : (c ∧ p) ∨ Inv s)
    (notReset : i ≠ .hardReset) (e : exec i s = .next t) : Kept c p s t := by
  rcases exec_ran e with u | r
  · exact kept_unapplied u
  · rcases ended_ran collects plays free notReset r with ended | ⟨a, -⟩ | ⟨packet, elsewhere, ws, rfl⟩
    · exact ended.kept
    · exact kept_accessed a
    · have allowed : WritesAllowed c p s := by
        refine free.imp_right fun inv => ⟨inv, fun waits => ?_⟩
        have begun : s.packet.index ≠ 0 := fun empty => elsewhere ⟨waits, empty⟩
        obtain ⟨hc, hp⟩ := packetAllowed_of_isPacket packet waits begun
        exact ⟨begun, fun h => collects (hc h), fun h => plays (hp h)⟩
      exact kept_writeWords ws allowed

/-- The power-on reset raises nothing, withdraws the request and clears the error (R370). -/
theorem hardReset_quiet (s : State) :
    (hardResetState s).obs.irqs = s.obs.irqs ∧ (hardResetState s).intrq = false ∧ ErrorClear (hardResetState s) := by
  rw [hardResetState_eq, unitRefresh_frame]
  exact ⟨rfl, rfl, rfl, rfl, (resetStatus_bits 0x40 (.inr rfl)).1⟩

end Operations

/-- Settles O8: an operation in one piece ends with one interrupt or none. -/
theorem atMostOneInterrupt : Obligations.AtMostOneInterrupt := by
  intro i s t awaited e
  rcases exec_ran e with u | r
  · rw [u]
    exact .inr ⟨rfl, .inl rfl⟩
  · by_cases reset : i = .hardReset
    · subst reset
      cases e
      obtain ⟨irqs, intrq, -⟩ := hardReset_quiet s
      exact .inr ⟨irqs, .inr ⟨intrq, .inr rfl⟩⟩
    · rcases ended_ran (fun _ => trivial) (fun _ => trivial) (.inl ⟨trivial, trivial⟩) reset r with
        ended | ⟨a, request⟩ | ⟨packet, elsewhere, -⟩
      · exact ended.requests.imp_right fun ⟨irqs, intrq⟩ => ⟨irqs, .inl intrq⟩
      · have shown : t.obs.irqs = s.obs.irqs := by rw [a]
        exact .inr ⟨shown, request.imp_right fun ⟨cleared, op⟩ => ⟨cleared, .inl op⟩⟩
      · exact absurd (awaited packet).2 elsewhere

/-- Settles O9: what an operation keeps, with the collecting operations allowed to collect. -/
theorem pendingErrorIsSticky : Obligations.PendingErrorIsSticky := by
  intro i s t inv e
  by_cases reset : i = .hardReset
  · subst reset
    cases e
    exact .inr (.inr ⟨trivial, (hardReset_quiet s).2.2⟩)
  · exact (kept_exec (p := movesAudio i s) id id (.inr inv) reset e).pending

/-- Settles O11: what an operation keeps, everything else allowed to move. -/
theorem fixedIdentificationBytesStay : Obligations.FixedIdentificationBytesStay := by
  intro i s t notReset length e
  have kept : Kept True True s t :=
    kept_exec (fun _ => trivial) (fun _ => trivial) (.inl ⟨trivial, trivial⟩) notReset e
  obtain ⟨length', fixed⟩ := kept.block length
  exact ⟨length', fun k h2 h4 h5 h6 h9 => fixed k (by simp [modeByteWritable, h2, h4, h5, h6, h9])⟩

/-- Settles O12: what an operation keeps, with the CDDA state allowed to move only as `movesAudio` says. -/
theorem onlyPlaybackMovesTheAudioState : Obligations.OnlyPlaybackMovesTheAudioState := by
  intro i s t inv e still
  have notReset : i ≠ .hardReset := by
    rintro rfl
    exact still trivial
  exact (kept_exec (c := collectsError i s) id id (.inr inv) notReset e).audio.resolve_left still

end Sys2Proof.Machine
end

section
/-! SUPPORT. The bytes a DATA write collects or stores, a failure and a refill in the terms of Safety.lean, and the fields of a
sector read's packet. -/

namespace Sys2Proof.Machine

open Sys2Proof

/-! ## Packet bytes (R166) -/

/-- Byte `k` of the accumulator after a write of one or two bytes at `i`. -/
theorem packetBytesAfter_getD (b : List Byte) (i n k : Nat) (v : Half) (size : n = 1 ∨ n = 2) (fits : i + n ≤ b.length) :
    (packetBytesAfter b i n v).getD k 0 =
      if k = i then v.extractLsb' 0 8 else if n = 2 ∧ k = i + 1 then v.extractLsb' 8 8 else b.getD k 0 := by
  have one (l : List Byte) (j : Nat) (x : Byte) (hj : j < l.length) : (l.set j x).getD k 0 = if k = j then x else l.getD k 0 := by
    rcases eq_or_ne k j with rfl | other
    · simp [List.getD, hj]
    · simp [List.getD, other, List.getElem?_set_ne other.symm]
  unfold packetBytesAfter
  rcases size with rfl | rfl
  · rw [if_neg (by decide), one _ _ _ (by omega)]
    simp
  · rw [if_pos rfl, one _ _ _ (by rw [List.length_set]; omega), one _ _ _ (by omega)]
    rcases eq_or_ne k i with rfl | other
    · simp
    · simp [other]

/-- A DATA write of packet bytes that fit collects them, and the twelfth byte has the packet run (R166, R173). -/
theorem hostWriteData_collects {n : Nat} (v : Half) {s : State} (waits : s.state = .waitpacket) (size : n = 1 ∨ n = 2)
    (fits : s.packet.index + n ≤ 12) :
    hostWriteData n v s =
      if s.packet.index + n = 12 then enterProcpacket (bytesCollected n v s) else .ok (bytesCollected n v s) := by
  have access : ¬ (n ≠ 1 ∧ n ≠ 2) := by omega
  have room : ¬ 12 < s.packet.index + n := by omega
  rw [hostWriteData, if_neg access, if_pos waits]
  exact if_neg room

/-- The DATA write as an operation (R166 to R168). -/
theorem exec_wData (n : Nat) (v : Half) {s : State} (h : s.live) : exec (.wData n v) s = applied s (hostWriteData n v s) :=
  whileLive_live s _ h

/-- A list of twelve bytes is the packet it agrees with byte by byte. -/
theorem eq_packet_of_getD {b : List Byte} {opcode : Byte} {p : Params} (length : b.length = 12)
    (h : ∀ k, k < 12 → (opcode :: p.toList).getD k 0 = b.getD k 0) : b = opcode :: p.toList := by
  refine List.ext_getElem length fun k hk _ => ?_
  have hk' : k < 12 := length ▸ hk
  have := h k hk'
  rw [List.getD_eq_getElem _ _ (by exact hk'), List.getD_eq_getElem _ _ hk] at this
  exact this.symm

/-- A handler that is applied records neither a misuse nor a refusal (R350, R351). -/
theorem live_of_spiHandler {opcode : Byte} {p : Params} {s t : State} (live : s.live)
    (e : spiHandler opcode p (dispatched opcode p s) = .ok t) : t.live := by
  have started : Quiet True True s (dispatched opcode p s) :=
    Quiet.startPacket (u := { s with packet := Packet.full opcode p }) { (Quiet.refl s : Quiet True True s s) with }
  have ended := ended_answered (fun _ => trivial) (fun _ => trivial) started (spiHandler_leads opcode p .start e)
  exact ⟨ended.record.1.trans live.1, ended.record.2.trans live.2⟩

/-! ## A received word (R85, R167) -/

/-- A DATA write of a word in the receive phase stores it (R167). -/
theorem hostWriteData_stores (v : Half) {s : State} (phase : s.state = .pioGetData) (left : s.pio.cursor < s.pio.size) :
    hostWriteData 2 v s = endPhaseIfDrained (wordStored v s) := by
  have write : pioWrite v s = .ok (wordStored v s) := if_pos left
  simp [hostWriteData, phase, write]

/-- The word stored reads back and every other byte stays (R85). -/
theorem wordStored_read (v : Half) (s : State) (wf : Memory.wf s.pio.data) :
    Memory.read (wordStored v s).pio.data (2 * s.pio.cursor) = v.extractLsb' 0 8 ∧
    Memory.read (wordStored v s).pio.data (2 * s.pio.cursor + 1) = v.extractLsb' 8 8 ∧
    ∀ a, a ≠ 2 * s.pio.cursor → a ≠ 2 * s.pio.cursor + 1 →
      Memory.read (wordStored v s).pio.data a = Memory.read s.pio.data a := by
  have wf' := Memory.write_wf s.pio.data (2 * s.pio.cursor) (v.extractLsb' 0 8) wf
  refine ⟨?_, Memory.read_write_same _ _ _ wf', fun a low high => ?_⟩
  · exact (Memory.read_write_other _ _ _ _ (by omega) wf').trans (Memory.read_write_same _ _ _ wf)
  · exact (Memory.read_write_other _ _ _ _ high wf').trans (Memory.read_write_other _ _ _ _ low wf)

theorem modeByteWritable_iff (i : Nat) : modeByteWritable i = true ↔ i = 2 ∨ i = 4 ∨ i = 5 ∨ i = 6 ∨ i = 9 := by
  simp [modeByteWritable, or_assoc]

/-! ## Failures (R290, R345) -/

/-- The failure procedure fails a packet whose state differs from `s` in the buffers' cursors and sizes too. -/
theorem commandFails_sameData (key : BitVec 4) (asc : Byte) (b : ErrorBit) (asked : List Query) (s u : State)
    (status : u.status = putBit (putBit s.status drqBit false) bsyBit true) (reason : u.intReason = s.intReason)
    (obs : u.obs = { s.obs with queries := s.obs.queries ++ asked }) (pio : u.pio.data = s.pio.data)
    (dma : u.dma.data = s.dma.data) :
    CommandFails key asc (errorValue key b) asked s (raiseFail { key := key, asc := asc, ascq := 0 } b .spi u) := by
  have fails := commandFails_packet key asc b asked { s with pio := u.pio, dma := u.dma } u status reason obs rfl rfl
  exact { fails with
    ends := { fails.ends with }
    pioCleared := fails.pioCleared.trans (congrArg (PioBuffer.mk · 0 0 .pioEnd) pio)
    dmaCleared := fails.dmaCleared.trans (congrArg (DmaBuffer.mk · 0 0) dma) }

/-- A refill that fails fails the read (R290). -/
theorem readFails_readFail (asked : List Query) (s u : State)
    (status : u.status = putBit (putBit s.status drqBit false) bsyBit true) (reason : u.intReason = s.intReason)
    (obs : u.obs = { s.obs with queries := s.obs.queries ++ asked }) (pio : u.pio.data = s.pio.data)
    (dma : u.dma.data = s.dma.data) (tray : u.trayOpen = s.trayOpen) :
    ReadFails u.answers.present asked s (readFail u) := by
  have obs' : (askedPresent u).obs = { s.obs with queries := s.obs.queries ++ (asked ++ [.isDiscPresent]) } := by
    show ({ u.obs with queries := u.obs.queries ++ [.isDiscPresent] } : Observation) = _
    rw [obs, List.append_assoc]
  unfold ReadFails readFail
  rw [← tray]
  rcases discReady_cases u with ⟨opened, e⟩ | ⟨closed, e⟩
  · rw [e]
    refine ⟨fun h => absurd (opened.symm.trans h.1) nofun, fun h => absurd (opened.symm.trans h.1) nofun, fun _ => ?_⟩
    exact commandFails_sameData _ _ .none _ _ _ status reason obs pio dma
  · rw [e]
    refine ⟨fun h => ?_, fun h => ?_, fun opened => absurd (closed.symm.trans opened) nofun⟩
    · rw [h.2]
      exact commandFails_sameData _ _ .none _ _ (askedPresent u) status reason obs' pio dma
    · rw [h.2]
      exact commandFails_sameData _ _ .none _ _ (askedPresent u) status reason obs' pio dma

/-- What a failed refill changes (R290, R345). -/
theorem readFail_frame (u : State) :
    readFail u = { u with
      state := (readFail u).state, status := (readFail u).status, error := (readFail u).error, sense := (readFail u).sense
      intReason := (readFail u).intReason, readParams := (readFail u).readParams, pioLimit := (readFail u).pioLimit
      intrq := (readFail u).intrq, obs := (readFail u).obs, pio := (readFail u).pio, dma := (readFail u).dma
      answers := (readFail u).answers } := by
  obtain ⟨e, v, -, rfl | rfl, eq⟩ := readFail_cases u
  · rw [eq]
    rfl
  · rw [eq]
    rfl

/-! ## The read engine on an empty DmaBuffer (R91, R291) -/

/-- An answer of the right length is fetched and its first chunk offered. -/
theorem enterReadsectorPio_refills {s : State} {size : Nat} {bytes : List Byte} (empty : s.dma.cursor = s.dma.size)
    (some : s.readParams.remaining ≠ 0) (r : Refills s size bytes) (answer : s.answers.sectors = .some bytes) :
    enterReadsectorPio s =
      .ok (chunkOffered (refilled (min 16 s.readParams.remaining) size bytes (engaged .readsectorPio s))) := by
  rcases dmaFill_cases (engaged .readsectorPio s) with ⟨h, -⟩ | ⟨-, none, -⟩ | ⟨-, size', bytes', hs, ha, -, f⟩ |
    ⟨-, size', hs, wrong, -⟩
  · exact absurd empty h
  · exact absurd (r.1.symm.trans none) nofun
  · cases r.1.symm.trans hs
    cases answer.symm.trans ha
    simp [enterReadsectorPio, dmaIsEmpty, empty, some, f, offerChunk_eq]
  · cases r.1.symm.trans hs
    exact absurd r.2 (wrong bytes answer)

/-- Without one the read fails. -/
theorem enterReadsectorPio_fails {s : State} {size : Nat} (empty : s.dma.cursor = s.dma.size)
    (some : s.readParams.remaining ≠ 0) (sized : sectorSize s.cfg s.readParams.sectorType = .some size)
    (wrong : ∀ bytes, s.answers.sectors = .some bytes → bytes.length ≠ min 16 s.readParams.remaining * size) :
    enterReadsectorPio s = .ok (readFail ((engaged .readsectorPio s).asking (refillQuery s))) := by
  rcases dmaFill_cases (engaged .readsectorPio s) with ⟨h, -⟩ | ⟨-, none, -⟩ | ⟨-, size', bytes', hs, ha, length, -⟩ |
    ⟨-, size', -, -, f⟩
  · exact absurd empty h
  · exact absurd (sized.symm.trans none) nofun
  · cases sized.symm.trans hs
    exact absurd length (wrong bytes' ha)
  · simp [enterReadsectorPio, dmaIsEmpty, empty, some, f]

/-- What was loaded is sliced off its front. -/
theorem Memory.slice_load (m : Memory) (bytes : List Byte) (n : Nat) :
    Memory.slice (Memory.load m bytes) 0 (min n bytes.length) = bytes.take n := by
  refine List.ext_getElem (by simp) fun k hk _ => ?_
  have inside : k < bytes.length := by
    rw [Memory.slice_length] at hk
    omega
  simp [Memory.slice, Memory.read_load_inside _ _ _ inside, List.getD, inside]

/-! ## The fields of a sector read's packet (R131, R139, R140) -/

theorem be24_toNat (b0 b1 b2 : Byte) : (be24 b0 b1 b2).toNat = b0.toNat * 65536 + b1.toNat * 256 + b2.toNat := by
  have h2 := b2.isLt
  have high : (b0 ++ b1 : Half).toNat = b0.toNat * 256 + b1.toNat := be16_toNat b0 b1
  rw [be24, BitVec.toNat_append, ← Nat.shiftLeft_add_eq_or_of_lt h2, Nat.shiftLeft_eq, high]
  omega

theorem packetFad_toNat (msf : Bool) (b0 b1 b2 : Byte) : (packetFad msf b0 b1 b2).toNat = frameAddress msf b0 b1 b2 := by
  cases msf with
  | false => exact be24_toNat b0 b1 b2
  | true =>
    have h0 := b0.isLt
    have h1 := b1.isLt
    have h2 := b2.isLt
    show ((b0.toNat * 60 + b1.toNat) * 75 + b2.toNat) % 2 ^ 24 = (b0.toNat * 60 + b1.toNat) * 75 + b2.toNat
    omega

theorem readStart_toNat (p : Params) : p.readStart.toNat = readAddress p := by
  have bit : ∀ b : Byte, b.getLsbD 0 = (b.toNat % 2 == 1) := by decide
  rw [Params.readStart, packetFad_toNat, bit]
  rfl

/-- Both sector reads run one procedure on their count (R284, R285). -/
theorem exec_readsSectors {i : Instr} {opcode : Byte} {p : Params} {count : Nat} {s : State} (a : s.awaiting)
    (reads : readsSectors i opcode p count) : exec i s = applied s (readStart p count (dispatched opcode p s)) := by
  rcases reads with ⟨rfl, rfl, rfl⟩ | ⟨rfl, rfl, rfl⟩
  · rw [← be24_toNat]
    exact runPacket_awaiting 0x30 spiCdRead p s a
  · rw [← be16_toNat]
    exact runPacket_awaiting 0x31 spiCdRead2 p s a

/-- A PIO read with a size and a usable limit enters the engine (R286). -/
theorem readStart_pio {p : Params} {count size : Nat} {s : State} (ready : s.ready) (pio : s.dmaEnable = false)
    (sized : sectorSize s.cfg p.sectorType = some size) (limit : 2 ≤ s.byteCount.toNat) :
    readStart p count s = enterReadsectorPio (readBegun p count (askedPresent s)) := by
  have usable : ¬ (s.dmaEnable = false ∧ 0 < count ∧ s.byteCount.toNat < 2) := by omega
  have bit : ¬ s.dmaEnable = true := by simp [pio]
  simp only [readStart, sized, needReady_ready _ _ ready]
  exact (if_neg usable).trans (if_neg bit)

end Sys2Proof.Machine
end

section
/-! The collection of packet bytes, the receive phase and the first chunk of a PIO read, settled. -/

namespace Sys2Proof.Machine

open Sys2Proof

/-- Settles O23: the accumulator takes the bytes, and the twelfth runs the packet that they decode to. -/
theorem packetBytesCollect : Obligations.PacketBytesCollect := by
  unfold Obligations.PacketBytesCollect
  refine ⟨?later, ?twelfth⟩
  case later =>
    intro n v s live waits size room length
    have fits : s.packet.index + n ≤ s.packet.b.length := by omega
    have byte (k : Nat) := packetBytesAfter_getD s.packet.b s.packet.index n k v size fits
    refine ⟨bytesCollected n v s, ?_, rfl, rfl, (packetBytesAfter_length _ _ _ _).trans length, ?_, ?_, ?_⟩
    · rw [exec_wData n v live, hostWriteData_collects v waits size (by omega), if_neg (by omega)]
      rfl
    · exact (byte _).trans (if_pos rfl)
    · intro two
      exact (byte _).trans (by simp [two])
    · intro k low high
      refine (byte k).trans ?_
      rw [if_neg low, if_neg fun h => high h.1 h.2]
  case twelfth =>
    intro n v opcode p s live waits size twelfth length agrees
    have fits : s.packet.index + n ≤ s.packet.b.length := by omega
    have whole : packetBytesAfter s.packet.b s.packet.index n v = opcode :: p.toList := by
      refine eq_packet_of_getD ((packetBytesAfter_length _ _ _ _).trans length) fun k hk => ?_
      rw [packetBytesAfter_getD s.packet.b s.packet.index n k v size fits, agrees k hk]
    have write : exec (.wData n v) s = applied s (spiHandler opcode p (dispatched opcode p s)) := by
      rw [exec_wData n v live, hostWriteData_collects v waits size (Nat.le_of_eq twelfth), if_pos twelfth, bytesCollected,
        whole, twelfth]
      rfl
    have packet : exec (decodePacket opcode p) { s with packet := { s.packet with index := 0 } } =
        applied { s with packet := { s.packet with index := 0 } } (spiHandler opcode p (dispatched opcode p s)) := by
      rw [exec_decodePacket]
      exact runPacket_awaiting _ _ _ _ ⟨live, waits, rfl⟩
    rw [write, packet]
    cases run : spiHandler opcode p (dispatched opcode p s) with
    | ok t => exact ⟨t, rfl, fun _ => rfl, fun dead => absurd (live_of_spiHandler live run) dead⟩
    | error f =>
      refine ⟨_, rfl, fun alive => absurd alive (recordHalt_not_live f _), fun _ => ?_⟩
      rcases recordHalt_cases f s with ⟨r, why, -⟩ | ⟨r, why, -⟩ <;> simp [applied, recordHalt, why]

/-- The status path from a drained block to a plain completion (R176, R177). -/
theorem status_block_done (w : Byte) :
    putBit (putBit (putBit (putBit (putBit (putBit (putBit (putBit w drqBit false) bsyBit true) drqBit false) drdyBit true)
      drqBit false) bsyBit false) drdyBit true) bsyBit false = (w &&& 0x77#8) ||| 0x40#8 := by
  revert w
  decide

/-- Settles O25: the word is stored where the cursor stands, and the last one has the block checked and stored. -/
theorem receivedWordIsStored : Obligations.ReceivedWordIsStored := by
  unfold Obligations.ReceivedWordIsStored
  refine ⟨?more, ?last⟩
  case more =>
    intro v s live phase more wf
    obtain ⟨low, high, other⟩ := wordStored_read v s wf
    refine ⟨wordStored v s, ?_, low, high, other, rfl⟩
    rw [exec_wData 2 v live, hostWriteData_stores v phase (by omega)]
    rcases endPhaseIfDrained_cases (wordStored v s) with ⟨drained, -⟩ | ⟨-, e⟩
    · exact absurd drained (Nat.ne_of_lt more)
    · rw [e]
      rfl
  case last =>
    intro v s live phase last next wf length
    obtain ⟨low, high, other⟩ := wordStored_read v s wf
    have run : exec (.wData 2 v) s = applied s (enterProcessSetMode ((wordStored v s).putStatus drqBit false)) := by
      rw [exec_wData 2 v live, hostWriteData_stores v phase (by omega)]
      rcases endPhaseIfDrained_cases (wordStored v s) with ⟨-, e⟩ | ⟨more, -⟩
      · rw [e, show (wordStored v s).pio.nextState = .processSetMode from next]
        rfl
      · exact absurd last more
    rw [run]
    rcases enterProcessSetMode_cases ((wordStored v s).putStatus drqBit false) with ⟨outside, e⟩ | ⟨inside, e⟩
    · replace outside : 32 < s.setMode.offset.toNat + s.setMode.length.toNat := outside
      rw [e]
      refine ⟨_, rfl, low, high, other, fun h => absurd h (by omega), fun _ => ⟨?_, rfl⟩⟩
      exact commandFails_sameData _ _ .ili [] { s with pio := { s.pio with data := (wordStored v s).pio.data } }
        (engaged .processSetMode ((wordStored v s).putStatus drqBit false)) rfl rfl (by simp) rfl rfl
    · replace inside : s.setMode.offset.toNat + s.setMode.length.toNat ≤ 32 := inside
      rw [e]
      refine ⟨_, rfl, low, high, other, fun _ => ⟨?_, ?_, ?_, rfl⟩, fun h => absurd h (by omega)⟩
      · exact (fixedBytes_modeStored ((wordStored v s).putStatus drqBit false) length).1
      · intro i hi
        refine (modeStored_getD ((wordStored v s).putStatus drqBit false) i hi).trans ?_
        simp only [modeByteAfter, modeByteWritable_iff]
        rfl
      · exact commandEnds_done .complete 0x40#8 [] s { modeStored ((wordStored v s).putStatus drqBit false) with
          state := .pioEnd, status := putBit (putBit (putBit s.status drqBit false) bsyBit true) drqBit false }
          (status_block_done s.status) rfl (by simp)

/-- The status path from a packet's dispatch through the engine to a chunk (R173, R174, R291). -/
theorem status_read_phase (w : Byte) :
    putBit (putBit (putBit (putBit (putBit w drqBit false) bsyBit true) bsyBit true) drqBit true) bsyBit false =
      (w &&& 0x77#8) ||| 0x08#8 := by
  revert w
  decide

/-- Entering the engine leaves BSY as the dispatch has set it (R173, R291). -/
theorem status_read_busy (w : Byte) :
    putBit (putBit (putBit w drqBit false) bsyBit true) bsyBit true = putBit (putBit w drqBit false) bsyBit true := by
  revert w
  decide

/-- A chunk's size is posted as it is: even and within the limit's sixteen bits (R292). -/
theorem chunk_posted {bytes : List Byte} {lim : Nat} (even : lim % 2 = 0) (small : lim < 65536) (total : bytes.length % 2 = 0) :
    (BitVec.ofNat 16 (2 * (((bytes.take lim).length + 1) / 2))).toNat = min lim bytes.length := by
  rw [BitVec.toNat_ofNat, List.length_take]
  omega

/-- A batch fetched into the DmaBuffer gives its first chunk at once (R291). -/
theorem chunkOffered_refilled {n size : Nat} {sectors : List Byte} (length : sectors.length = n * size) (s : State) :
    chunkOffered (refilled n size sectors s) = responding (sectors.take (2 * (s.pioLimit.toNat / 2))) .readsectorPio
      { refilled n size sectors s with dma :=
        { data := Memory.load s.dma.data sectors, cursor := min (2 * (s.pioLimit.toNat / 2)) (n * size), size := n * size } } := by
  have chunk : min (chunkLimit (refilled n size sectors s)) (dmaUnread (refilled n size sectors s)) =
      min (2 * (s.pioLimit.toNat / 2)) (n * size) := by
    rw [chunkLimit_eq]
    rfl
  rw [chunkOffered, chunk, ← Memory.slice_load s.dma.data sectors, length]
  simp only [refilled, Nat.zero_add]

/-- The state in which the engine begins an awaited packet's sector read (R286). -/
abbrev readOf (opcode : Byte) (p : Params) (count : Nat) (s : State) : State :=
  readBegun p count (askedPresent (dispatched opcode p s))

/-- Settles O54: the read is begun with an empty DmaBuffer, so it refills and offers the first chunk, or fails. -/
theorem pioReadOffersTheFirstChunk : Obligations.PioReadOffersTheFirstChunk := by
  intro i opcode p count size s a ready pio reads some sized limit n lim asked
  have begun : exec i s = applied s (enterReadsectorPio (readOf opcode p count s)) := by
    rw [exec_readsSectors a reads, readStart_pio (s := dispatched opcode p s) ready pio sized limit]
  have remaining : (readOf opcode p count s).readParams.remaining ≠ 0 := Nat.ne_of_gt some
  have shown : s.obs.queries ++ [.isDiscPresent] ++ [.readSectors p.readStart.toNat n p.sectorType] =
      s.obs.queries ++ asked := by
    rw [readStart_toNat, List.append_assoc]
    rfl
  obtain ⟨-, -, even⟩ := sectorSize_ok _ _ _ sized
  refine ⟨?fetched, ?failed⟩
  case fetched =>
    intro sectors answer length
    have total : sectors.length % 2 = 0 := by
      rw [length, Nat.mul_mod, even]
      rfl
    have small : lim % 2 = 0 ∧ lim < 65536 := by
      have := s.byteCount.isLt
      omega
    have run := (enterReadsectorPio_refills rfl remaining ⟨sized, length⟩ answer).trans
      (congrArg Except.ok (chunkOffered_refilled length _))
    rw [begun, run, ← readStart_toNat]
    refine ⟨_, rfl, ?phase, ?posted, rfl, rfl, rfl, rfl, rfl, ?low, ?high, rfl⟩
    case phase =>
      exact phaseToHost_responding _ 0x77#8 _ asked s _ (status_read_phase s.status) rfl
        (congrArg (fun q => ({ s.obs with queries := q } : Observation)) shown) rfl
    case posted => exact length ▸ chunk_posted small.1 small.2 total
    case low => exact fun k hk => Memory.read_load_inside _ _ _ (length ▸ hk)
    case high => exact fun k hk => Memory.read_load_outside _ _ _ (length ▸ hk)
  case failed =>
    intro wrong
    rw [begun, enterReadsectorPio_fails rfl remaining sized wrong]
    refine ⟨_, rfl, ?_, ?_, ?_⟩
    · exact readFails_readFail asked s ((engaged .readsectorPio (readOf opcode p count s)).asking
        (refillQuery (readOf opcode p count s))) (status_read_busy s.status) rfl
        (congrArg (fun q => ({ s.obs with queries := q } : Observation)) shown) rfl rfl rfl
    · rw [readFail_frame]
      rfl
    · rw [readFail_frame]
      rfl

end Sys2Proof.Machine
end

section
/-! SUPPORT. A well-formed TOC (R101): its tracks by number, the track under a frame address (R105), and the blocks of four
bytes that a TOC response is made of (R241). -/

namespace Sys2Proof.Machine

open Sys2Proof

/-- What R101 says of the tracks of a well-formed TOC. -/
theorem tocValid_tracks {t : Toc} (h : tocValid t = true) :
    t.firstTrack.toNat ≤ t.lastTrack.toNat ∧ t.lastTrack.toNat ≤ 99 ∧
    t.tracks.length = t.lastTrack.toNat + 1 - t.firstTrack.toNat ∧
    ∃ first rest, t.tracks = first :: rest ∧ fadsRise first.fad (rest ++ [t.leadout]) = true := by
  simp only [tocValid, Bool.and_eq_true, decide_eq_true_eq, beq_iff_eq] at h
  obtain ⟨⟨⟨⟨⟨⟨⟨-, -⟩, order⟩, last⟩, length⟩, rise⟩, -⟩, -⟩ := h.1
  refine ⟨order, last, length, ?_⟩
  cases tracks : t.tracks with
  | nil =>
    rw [tracks] at rise
    cases rise
  | cons first rest =>
    rw [tracks] at rise
    exact ⟨first, rest, rfl, rise⟩

/-- In a well-formed TOC a track's entry stands at its number's place from the first track on. -/
theorem trackEntry_eq_some {t : Toc} (h : tocValid t = true) (k : Nat) (e : Track) :
    trackEntry t k = some e ↔ t.firstTrack.toNat ≤ k ∧ t.tracks[k - t.firstTrack.toNat]? = some e := by
  obtain ⟨order, -, length, -⟩ := tocValid_tracks h
  unfold trackEntry
  split
  · rename_i inside
    simp [inside.1]
  · rename_i outside
    refine ⟨nofun, fun ⟨low, entry⟩ => ?_⟩
    obtain ⟨listed, -⟩ := List.getElem?_eq_some_iff.mp entry
    exact absurd ⟨low, by omega⟩ outside

/-- Every later frame address of a rising list is above the one it rises from. -/
theorem lt_of_fadsRise {f : Fad} {l : List Track} (h : fadsRise f l = true) {e : Track} (he : e ∈ l) :
    f.toNat < e.fad.toNat := by
  induction l generalizing f with
  | nil => cases he
  | cons first rest ih =>
    simp only [fadsRise, Bool.and_eq_true, decide_eq_true_eq] at h
    obtain ⟨above, rise⟩ := h
    rcases List.mem_cons.mp he with rfl | later
    · exact above
    · exact Nat.lt_trans above (ih rise later)

/-- No entry is found exactly when every one starts after the frame. -/
theorem lastAtMost_eq_none (fad : Fad) (n : Nat) (l : List Track) :
    lastAtMost fad n l = none ↔ ∀ e ∈ l, fad.toNat < e.fad.toNat := by
  induction l generalizing n with
  | nil => simp [lastAtMost]
  | cons first rest ih =>
    rw [List.forall_mem_cons, ← ih (n + 1), lastAtMost]
    cases lastAtMost fad (n + 1) rest with
    | some found => simp
    | none => simp

/-- The entry found stands at its number's place and starts at or before the frame, and every later one starts after it. -/
theorem lastAtMost_spec {fad : Fad} {n : Nat} {l : List Track} {k : Nat} {e : Track} (h : lastAtMost fad n l = some (k, e)) :
    n ≤ k ∧ l[k - n]? = some e ∧ e.fad.toNat ≤ fad.toNat ∧
      ∀ j f, k < j → l[j - n]? = some f → fad.toNat < f.fad.toNat := by
  induction l generalizing n with
  | nil => cases h
  | cons first rest ih =>
    have later (j : Nat) (hj : n < j) : (first :: rest)[j - n]? = rest[j - (n + 1)]? := by
      rw [show j - n = j - (n + 1) + 1 by omega, List.getElem?_cons_succ]
    rw [lastAtMost] at h
    cases hit : lastAtMost fad (n + 1) rest with
    | some found =>
      simp only [hit] at h
      cases h
      obtain ⟨low, entry, atMost, above⟩ := ih hit
      exact ⟨by omega, (later k low).trans entry, atMost,
        fun j f hj hf => above j f hj ((later j (by omega)).symm.trans hf)⟩
    | none =>
      simp only [hit] at h
      split at h
      · rename_i atMost
        cases h
        exact ⟨Nat.le_refl _, by simp, atMost, fun j f hj hf =>
          (lastAtMost_eq_none _ _ _).mp hit f (List.mem_of_getElem? ((later j hj).symm.trans hf))⟩
      · cases h

/-- There is one such entry, and it is found. -/
theorem lastAtMost_eq_some (fad : Fad) (n : Nat) (l : List Track) (k : Nat) (e : Track) :
    lastAtMost fad n l = some (k, e) ↔ n ≤ k ∧ l[k - n]? = some e ∧ e.fad.toNat ≤ fad.toNat ∧
      ∀ j f, k < j → l[j - n]? = some f → fad.toNat < f.fad.toNat := by
  refine ⟨lastAtMost_spec, fun ⟨low, entry, atMost, above⟩ => ?_⟩
  cases found : lastAtMost fad n l with
  | none => exact absurd atMost (Nat.not_le.mpr ((lastAtMost_eq_none _ _ _).mp found e (List.mem_of_getElem? entry)))
  | some hit =>
    obtain ⟨k', e'⟩ := hit
    obtain ⟨low', entry', atMost', above'⟩ := lastAtMost_spec found
    rcases Nat.lt_trichotomy k k' with earlier | rfl | later
    · exact absurd atMost' (Nat.not_le.mpr (above k' e' earlier entry'))
    · rw [Option.some.inj (entry'.symm.trans entry)]
    · exact absurd atMost (Nat.not_le.mpr (above' k e later entry))

/-! ## Blocks of four bytes (R241) -/

/-- A window inside the first part of a block. -/
theorem window_append_left {a : List Byte} (b : List Byte) {off len : Nat} (h : off + len ≤ a.length) :
    window (a ++ b) off len = window a off len := by
  rw [window, window, List.drop_append_of_le_length (by omega), List.take_append_of_le_length (by rw [List.length_drop]; omega)]

/-- A window past the first part of a block. -/
theorem window_append_right (a b : List Byte) (off len : Nat) :
    window (a ++ b) (a.length + off) len = window b off len := by
  rw [window, List.drop_length_add_append, window]

/-- A list of entries of one size has entry `i` at its place. -/
theorem window_flatMap {α : Type} (f : α → List Byte) (size : Nat) (l : List α) (sized : ∀ x ∈ l, (f x).length = size)
    (i : Nat) (hi : i < l.length) : window (l.flatMap f) (size * i) size = f l[i] := by
  induction l generalizing i with
  | nil => exact absurd hi (Nat.not_lt_zero i)
  | cons x rest ih =>
    have here : (f x).length = size := sized x List.mem_cons_self
    cases i with
    | zero => simp [window, ← here]
    | succ j =>
      rw [List.flatMap_cons, Nat.mul_succ, Nat.add_comm, ← here, window_append_right, here]
      exact ih (fun y hy => sized y (List.mem_cons_of_mem x hy)) j (Nat.lt_of_succ_lt_succ hi)

theorem tocTrackBytes_length (t : Toc) (k : Nat) : (tocTrackBytes t k).length = 4 := by
  unfold tocTrackBytes
  split <;> rfl

/-- The table of the track numbers 1 to 99, the first part of a TOC response (R241). -/
abbrev tocTable (t : Toc) : List Byte := (List.range 99).flatMap fun k => tocTrackBytes t (k + 1)

theorem tocTable_length (t : Toc) : (tocTable t).length = 396 := by
  rw [List.length_flatMap, List.map_congr_left fun k _ => tocTrackBytes_length t (k + 1)]
  rfl

/-- The parts of a TOC response (R241). -/
theorem tocBytes_eq (t : Toc) :
    tocBytes t = tocTable t ++ (tocEndBytes t t.firstTrack ++ (tocEndBytes t t.lastTrack ++
      (ctrlAdr t.leadout :: fadBytes t.leadout.fad))) := by
  rw [tocBytes, List.append_assoc, List.append_assoc]

/-- A TOC response has four bytes at the place of each track number (R241). -/
theorem window_tocBytes (t : Toc) (k : Nat) (low : 1 ≤ k) (high : k ≤ 99) :
    window (tocBytes t) (4 * (k - 1)) 4 = tocTrackBytes t k := by
  have block := window_flatMap (fun k => tocTrackBytes t (k + 1)) 4 (List.range 99)
    (fun k _ => tocTrackBytes_length t (k + 1)) (k - 1) (by rw [List.length_range]; omega)
  rw [tocBytes_eq, window_append_left _ (by rw [tocTable_length]; omega), block, List.getElem_range]
  rw [Nat.sub_add_cancel low]

/-- What follows the table of a TOC response (R241). -/
theorem window_tocBytes_after (t : Toc) (off : Nat) :
    window (tocBytes t) (396 + off) 4 = window (tocEndBytes t t.firstTrack ++ (tocEndBytes t t.lastTrack ++
      (ctrlAdr t.leadout :: fadBytes t.leadout.fad))) off 4 := by
  rw [tocBytes_eq, ← tocTable_length t]
  exact window_append_right _ _ _ _

/-- The entry of the first or the last track, where the disc has it (R241). -/
theorem tocEndBytes_of_entry {t : Toc} {number : Byte} {e : Track} (h : trackEntry t number.toNat = some e) :
    tocEndBytes t number = [e.ctrl ++ e.adr, number, 0x00, 0x00] := by
  rw [tocEndBytes, h]
  rfl

/-! ## Settled -/

/-- Settles O36: what is found is the last track at or before the frame, and the first track is the lowest. -/
theorem trackUnderAFrame : Obligations.TrackUnderAFrame := by
  intro t fad valid
  obtain ⟨-, -, -, first, rest, tracks, rise⟩ := tocValid_tracks valid
  refine ⟨fun k e => ?found, ?none⟩
  case found =>
    by_cases outside : t.leadout.fad.toNat ≤ fad.toNat
    · simp [trackAt, outside, Nat.not_lt.mpr outside]
    · rw [trackAt, if_neg outside, lastAtMost_eq_some, trackEntry_eq_some valid k e, and_assoc]
      have later (low : t.firstTrack.toNat ≤ k) (j : Nat) (f : Track) (hj : k < j) :
          trackEntry t j = some f ↔ t.tracks[j - t.firstTrack.toNat]? = some f := by
        rw [trackEntry_eq_some valid]
        exact and_iff_right (by omega)
      constructor
      · rintro ⟨low, entry, atMost, above⟩
        exact ⟨Nat.not_le.mp outside, low, entry, atMost, fun j f hj hf => above j f hj ((later low j f hj).mp hf)⟩
      · rintro ⟨-, low, entry, atMost, above⟩
        exact ⟨low, entry, atMost, fun j f hj hf => above j f hj ((later low j f hj).mpr hf)⟩
  case none =>
    have lowest : trackEntry t t.firstTrack.toNat = some first :=
      (trackEntry_eq_some valid _ _).mpr ⟨Nat.le_refl _, by simp [tracks]⟩
    by_cases outside : t.leadout.fad.toNat ≤ fad.toNat
    · simp [trackAt, outside]
    · rw [trackAt, if_neg outside, lastAtMost_eq_none, tracks, List.forall_mem_cons, lowest, or_iff_right outside]
      constructor
      · rintro ⟨above, -⟩ e same
        exact Option.some.inj same ▸ above
      · intro above
        have before : fad.toNat < first.fad.toNat := above first rfl
        exact ⟨before, fun e he => Nat.lt_trans before (lt_of_fadsRise rise (List.mem_append_left _ he))⟩

/-- Settles O40: the table has four bytes for each number, and twelve bytes follow it. -/
theorem tocBytesLayout : Obligations.TocBytesLayout := by
  intro t valid
  refine ⟨?length, ?track, ?absent, ?first, ?last, ?leadout⟩
  case length =>
    rw [tocBytes_eq, List.length_append, tocTable_length]
    rfl
  case track =>
    intro k e low high entry
    rw [window_tocBytes t k low high, tocTrackBytes, entry]
    rfl
  case absent =>
    intro k low high outside
    have absent : trackEntry t k = none := if_neg (by omega)
    rw [window_tocBytes t k low high, tocTrackBytes, absent]
  case first =>
    intro e entry
    exact (window_tocBytes_after t 0).trans (tocEndBytes_of_entry entry)
  case last =>
    intro e entry
    exact (window_tocBytes_after t 4).trans (tocEndBytes_of_entry entry)
  case leadout => exact window_tocBytes_after t 8

end Sys2Proof.Machine
end

section
/-! The contracts of the two buffers, and the misuses of the register and data ports, settled. -/

namespace Sys2Proof.Machine

open Sys2Proof

/-! ## The buffers (R82 to R93) -/

/-- Reads within the size give the words from the cursor on and advance it (R84). -/
theorem takeWords_eq {k : Nat} {s : State} (h : s.pio.cursor + k ≤ s.pio.size) :
    takeWords k s = some ((List.range k).map (fun i => pioWord s (s.pio.cursor + i)),
      { s with pio := { s.pio with cursor := s.pio.cursor + k } }) := by
  induction k with
  | zero => rfl
  | succ k ih =>
    have left : pioRead { s with pio := { s.pio with cursor := s.pio.cursor + k } } =
        .ok (pioWord s (s.pio.cursor + k), { s with pio := { s.pio with cursor := s.pio.cursor + k + 1 } }) :=
      if_pos (show s.pio.cursor + k < s.pio.size by omega)
    simp only [takeWords, ih (by omega), left, List.range_succ, List.map_append]
    rfl

/-- Settles O26: a fill leaves the cursor at 0 and the reads count up to its size; a DMA read is its slice. -/
theorem buffersKeepTheirContracts : Obligations.BuffersKeepTheirContracts := by
  unfold Obligations.BuffersKeepTheirContracts
  refine ⟨fun n s => ⟨?overCapacity, ?fits⟩, fun len s bounds => ⟨?read, ?past⟩⟩
  case overCapacity =>
    intro _
    rcases pioFill_cases n s with ⟨fits, -⟩ | ⟨-, e⟩
    · omega
    · exact e
  case fits =>
    intro fits
    refine ⟨_, pioFill_fits n s fits, rfl, rfl, fun k hk => ?_⟩
    refine ⟨_, _, takeWords_eq (by rw [Nat.zero_add]; exact hk), ?_, ?_, ?_⟩
    · simp only [Nat.zero_add]
      rfl
    · simp [pioAtEnd]
    · intro drained
      exact if_neg (by simp [drained])
  case read =>
    intro within
    rcases dmaRead_cases len s with ⟨-, e⟩ | ⟨past, -⟩
    · refine ⟨_, e, Memory.slice_length _ _ _, fun i hi => Memory.slice_getD _ _ _ i hi, fun all => ?_⟩
      simp only [dmaIsEmpty, beq_iff_eq]
      omega
    · exact absurd within (Nat.not_le.mpr past)
  case past =>
    intro past
    rcases dmaRead_cases len s with ⟨within, -⟩ | ⟨-, e⟩
    · exact absurd within (Nat.not_le.mpr past)
    · exact e

/-! ## An operation that is not applied (R350) -/

/-- With nothing recorded a misuse is recorded, and nothing else changes. -/
theorem applied_misused {s : State} (live : s.live) (r : Misuse) :
    applied s (misused r s) = .next { s with misuse := some r } := by
  simp [applied, misused, recordHalt, live.1]

/-- The value of a misused access has the access's width. -/
theorem accessValue_ofSize {n : Nat} {bytes : List Byte} (h : bytes.length = n) : (accessValue n bytes).ofSize n := by
  unfold accessValue
  split
  · rfl
  · rfl
  · rename_i not1 not2
    exact ⟨not1, not2, h⟩

theorem freeBytes_length (k n : Nat) : (freeBytes k n).length = n := by simp [freeBytes]

/-- A misused read returns some value of its width and records the reason; nothing else changes. -/
theorem unfixedRead_misuse {s : State} (live : s.live) (reason : Misuse) (n : Nat) :
    ∃ t r, Host.Outcome.next (unfixedRead { why := .misuse reason, asked := s.obs.queries } n s) = (.next t : Result) ∧
      t.obs.returned = some r ∧ r.ofSize n ∧
      t = { s with misuse := some reason, freeCount := t.freeCount, obs := { s.obs with returned := t.obs.returned } } := by
  refine ⟨_, _, rfl, rfl, accessValue_ofSize (freeBytes_length s.freeCount n), ?_⟩
  simp [unfixedRead, recordHalt, State.returning, live.1]

/-- A misused pull returns as many bytes as were asked for and records the reason; nothing else changes. -/
theorem unfixedPull_misuse {s : State} (live : s.live) (reason : Misuse) (len : Nat) :
    ∃ t r, Host.Outcome.next (unfixedPull { why := .misuse reason, asked := s.obs.queries } len s) = (.next t : Result) ∧
      t.obs.returned = some (.bytes r) ∧ r.length = len ∧
      t = { s with misuse := some reason, freeCount := t.freeCount, obs := { s.obs with returned := t.obs.returned } } := by
  refine ⟨_, _, rfl, rfl, freeBytes_length s.freeCount len, ?_⟩
  simp [unfixedPull, recordHalt, State.returning, live.1]

/-! ## The register port -/

/-- A register read of the wrong size is not applied (R97). -/
theorem readRegister_wrongSize {n : Nat} {s : State} (live : s.live) (size : n ≠ 1) (v : Byte) (t : State) :
    readRegister n v s t = .next (unfixedRead { why := .misuse .badAccessSize, asked := s.obs.queries } n s) := by
  rw [readRegister, whileLive_live s _ live, if_neg size]

/-- A register write of the wrong size is not applied (R97). -/
theorem writeRegister_wrongSize {n : Nat} {s : State} (live : s.live) (size : n ≠ 1) (t : State) :
    writeRegister n s t = .next { s with misuse := some .badAccessSize } := by
  rw [writeRegister, whileLive_live s _ live, if_neg size, applied_misused live]

/-- The command that a code decodes to writes that code (R120, R122, R200). -/
theorem exec_decodeAta (code : Byte) (s : State) : exec (decodeAta code) s = runCommand code (ataHandler code) s := by
  have known : code ∈ ataCodes ∨ ataOp code = .other := by
    revert code
    decide
  rcases known with listed | other
  · simp only [ataCodes, List.mem_cons, List.not_mem_nil, or_false] at listed
    rcases listed with rfl | rfl | rfl | rfl | rfl | rfl | rfl <;> rfl
  · simp only [decodeAta, ataHandler, other]
    rfl

/-- Both ways of writing a command are the one command write (R10, R169). -/
theorem exec_writesCommand {code : Byte} {i : Instr} {s : State} (live : s.live) (h : writesCommand code i) :
    exec i s = applied s (commandWrite code (ataHandler code) s) := by
  rcases h with rfl | ⟨v, rfl, rfl⟩
  · rw [exec_decodeAta, runCommand, whileLive_live s _ live]
  · exact whileLive_live s _ live

/-- Settles O21: each register read and write tests the size, each command write the state. -/
theorem registerPortMisuse : Obligations.RegisterPortMisuse := by
  unfold Obligations.RegisterPortMisuse
  refine ⟨⟨?read, ?write⟩, ?command⟩
  case read =>
    intro i n s live size op
    have misuse (v : Byte) (u : State) :
        ∃ t r, readRegister n v s u = .next t ∧ t.obs.returned = some r ∧ r.ofSize n ∧ t = { s with
          misuse := some .badAccessSize, freeCount := t.freeCount, obs := { s.obs with returned := t.obs.returned } } := by
      rw [readRegister_wrongSize live size]
      exact unfixedRead_misuse live .badAccessSize n
    rcases op with rfl | rfl | rfl | rfl | rfl | rfl | rfl <;> exact misuse _ _
  case write =>
    intro i n v s live size op
    have misuse (u : State) := writeRegister_wrongSize live size u
    have command : execWCommand n v s = .next { s with misuse := some .badAccessSize } := by
      rw [execWCommand, whileLive_live s _ live, if_neg size, applied_misused live]
    rcases op with rfl | rfl | rfl | rfl | rfl | rfl | rfl
    · exact misuse _
    · exact misuse _
    · exact misuse _
    · exact misuse _
    · exact misuse _
    · exact misuse _
    · exact command
  case command =>
    intro code i s writes notReset live busy
    rw [exec_writesCommand live writes, commandWrite, if_pos ⟨notReset, busy⟩, applied_misused live]

/-! ## The DATA port and the DMA port -/

/-- A DATA read that is a misuse returns some value and records the reason. -/
theorem exec_rData_misused {n : Nat} {s : State} {reason : Misuse} (live : s.live)
    (e : hostReadData n s = misused reason s) :
    ∃ t r, exec (.rData n) s = .next t ∧ t.obs.returned = some r ∧ r.ofSize n ∧
      t = { s with misuse := some reason, freeCount := t.freeCount, obs := { s.obs with returned := t.obs.returned } } := by
  have run : exec (.rData n) s = .next (unfixedRead { why := .misuse reason, asked := s.obs.queries } n s) := by
    refine (whileLive_live s _ live).trans ?_
    rw [e]
    rfl
  rw [run]
  exact unfixedRead_misuse live reason n

/-- A DATA write that is a misuse records the reason. -/
theorem exec_wData_misused {n : Nat} {v : Half} {s : State} {reason : Misuse} (live : s.live)
    (e : hostWriteData n v s = misused reason s) : exec (.wData n v) s = .next { s with misuse := some reason } := by
  rw [exec_wData n v live, e, applied_misused live]

/-- A pull that is a misuse returns some bytes and records the reason. -/
theorem exec_dmaPull_misused {len : Nat} {s : State} {reason : Misuse} (live : s.live)
    (e : dmaPullBytes len s = misused reason s) :
    ∃ t r, exec (.dmaPull len) s = .next t ∧ t.obs.returned = some (.bytes r) ∧ r.length = len ∧
      t = { s with misuse := some reason, freeCount := t.freeCount, obs := { s.obs with returned := t.obs.returned } } := by
  have run : exec (.dmaPull len) s = .next (unfixedPull { why := .misuse reason, asked := s.obs.queries } len s) := by
    refine (whileLive_live s _ live).trans ?_
    rw [e]
    rfl
  rw [run]
  exact unfixedPull_misuse live reason len

/-- Settles O22: the tests of each port in their order (log entry 13). -/
theorem dataPortMisuse : Obligations.DataPortMisuse := by
  unfold Obligations.DataPortMisuse
  refine ⟨⟨?readPhase, ?readSize, ?writePhase, ?writeSize, ?overrun⟩, fun len s live => ⟨?pullPhase, ?pullPast⟩⟩
  case readPhase => exact fun n s live phase => exec_rData_misused live (if_pos phase)
  case readSize =>
    intro n s live phase size
    refine exec_rData_misused live ?_
    rw [hostReadData, if_neg (not_not.mpr phase), if_pos size]
  case writePhase =>
    intro n v s live size waits receives
    refine exec_wData_misused live ?_
    rw [hostWriteData, if_neg (by omega), if_neg waits, if_neg receives]
  case writeSize =>
    rintro n v s live (size | ⟨rfl, receives⟩)
    · exact exec_wData_misused live (if_pos size)
    · have waits : s.state ≠ .waitpacket := by simp [receives]
      refine exec_wData_misused live ?_
      rw [hostWriteData, if_neg (by decide), if_neg waits, if_pos receives, if_neg (by decide)]
  case overrun =>
    intro v s live waits eleven
    refine exec_wData_misused live ?_
    rw [hostWriteData, if_neg (by decide), if_pos waits]
    exact if_pos (by rw [eleven]; decide)
  case pullPhase => exact fun phase => exec_dmaPull_misused live (if_pos phase)
  case pullPast =>
    intro phase past
    refine exec_dmaPull_misused live ?_
    rcases dmaRead_cases len s with ⟨within, -⟩ | ⟨-, e⟩
    · exact absurd within (Nat.not_le.mpr past)
    · rw [dmaPullBytes, if_neg (not_not.mpr phase), e]
      rfl

end Sys2Proof.Machine
end

section
/-! Awaited packets that depend on the disc and its TOC, settled: TEST_UNIT, the failures without a disc or a TOC, REQ_STAT and
GET_SCD. -/

namespace Sys2Proof.Machine

open Sys2Proof

/-! ## Handlers that need the disc or its TOC (R261, R331) -/

/-- What the question for the disc and its TOC can change: the queries and answers, the cache and the DiscFormat. -/
abbrev driveAsked (asked : List Query) (answers : Answers) (cache : Option Toc) (sectNum : Byte) (s : State) : State :=
  { s with obs := { s.obs with queries := s.obs.queries ++ asked }, answers := answers, tocCache := cache, sectNum := sectNum }

/-- The handlers that start with the question for the disc; a sector read does so once its descriptor has a size. -/
theorem spiHandler_needsReady {opcode : Byte} (p : Params) (s : State)
    (row : opcode ∈ [0x00#8, 0x14#8, 0x15#8, 0x20#8, 0x21#8, 0x22#8] ∨
      (opcode ∈ [0x30#8, 0x31#8] ∧ (sectorSize s.cfg p.sectorType).isSome = true)) :
    ∃ k, spiHandler opcode p s = needReady k s := by
  simp only [List.mem_cons, List.not_mem_nil, or_false] at row
  rcases row with (rfl | rfl | rfl | rfl | rfl | rfl) | ⟨reads, sized⟩
  case inr =>
    obtain ⟨size, hsize⟩ := Option.isSome_iff_exists.mp sized
    have begins (count : Nat) : ∃ k, readStart p count s = needReady k s := by
      simp only [readStart, hsize]
      exact ⟨_, rfl⟩
    rcases reads with rfl | rfl <;> exact begins _
  · exact ⟨_, (rfl : spiTestUnit p s = needReady _ s)⟩
  · exact ⟨_, (rfl : spiGetToc p s = needReady _ s)⟩
  · exact ⟨_, (rfl : spiReqSes p s = needReady _ s)⟩
  · exact ⟨_, (rfl : spiCdPlay p s = needReady _ s)⟩
  · exact ⟨_, (rfl : spiCdSeek p s = needReady _ s)⟩
  · exact ⟨_, (rfl : spiCdScan p s = needReady _ s)⟩

/-- The handlers that ask a ready drive for the TOC next. -/
theorem spiHandler_needsToc {opcode : Byte} {p : Params} {s : State} (ready : s.ready)
    (row : opcode = 0x14#8 ∨ opcode = 0x15#8 ∨ (opcode = 0x20#8 ∧ (p.ptype.toNat = 1 ∨ p.ptype.toNat = 2))) :
    ∃ k, spiHandler opcode p s = needToc k (askedPresent s) := by
  rcases row with rfl | rfl | ⟨rfl, ptype⟩
  · exact ⟨_, needReady_ready _ s ready⟩
  · exact ⟨_, needReady_ready _ s ready⟩
  · have play : spiCdPlay p s = playFrom p (askedPresent s) := by
      rw [spiCdPlay, needReady_ready _ s ready]
      rcases ptype with h | h <;> simp only [h]
    exact ⟨_, play⟩

/-- Without a TOC `need_toc` fails with medium-error. -/
theorem needToc_lacks (k : Toc → Act) {s : State} (h : s.lacksToc) :
    needToc k s = .ok (failMedium (s.asking .getTOC)) := by
  rw [needToc, cachedToc_lacks s h]

theorem ptype_toNat (p : Params) : p.ptype.toNat = paramType p := by
  simp [Params.ptype, paramType]

/-- Settles O33: the drive answers that it is ready, and the packet completes. -/
theorem testUnitWithADisc : Obligations.TestUnitWithADisc := by
  intro p s a ready
  have run : spiTestUnit p (dispatched 0x00 p s) = .ok (spiDone (askedPresent (dispatched 0x00 p s))) :=
    needReady_ready _ _ ready
  exact ⟨_, runPacket_next 0x00 spiTestUnit p s _ a run, commandEnds_packet _ s _ rfl rfl rfl, rfl, rfl⟩

/-- Settles O34: the question for the disc stands before all else, the one for the TOC behind it. -/
theorem notReadyAndMediumErrors : Obligations.NotReadyAndMediumErrors := by
  unfold Obligations.NotReadyAndMediumErrors
  refine ⟨?notReady, ?noToc⟩
  case notReady =>
    intro opcode p s a lacks row
    have notReady : ¬ (dispatched opcode p s).ready := by
      rintro ⟨closed, present⟩
      rcases lacks with opened | absent
      · cases opened.symm.trans closed
      · cases absent.symm.trans present
    obtain ⟨k, handler⟩ := spiHandler_needsReady p (dispatched opcode p s) row
    obtain ⟨answers, e⟩ := discReady_not_ready (dispatched opcode p s) notReady
    have run : spiHandler opcode p (dispatched opcode p s) = .ok (failNotReady (driveAsked
        (if s.trayOpen then [] else [.isDiscPresent]) answers s.tocCache s.sectNum (dispatched opcode p s))) := by
      rw [handler, needReady, e]
      rfl
    rw [exec_decodePacket]
    refine ⟨_, runPacket_next opcode (spiHandler opcode) p s _ a run, ?_, rfl, rfl⟩
    exact commandFails_packet _ _ .none _ s _ rfl rfl rfl rfl rfl
  case noToc =>
    intro opcode p s a ready lacks row
    rw [← ptype_toNat] at row
    obtain ⟨k, handler⟩ := spiHandler_needsToc (s := dispatched opcode p s) ready row
    rw [exec_decodePacket]
    refine ⟨_, runPacket_next opcode (spiHandler opcode) p s _ a (handler.trans (needToc_lacks k lacks)), ?_, rfl, rfl⟩
    refine commandFails_packet _ _ .none _ s _ rfl rfl ?_ rfl rfl
    exact congrArg (fun q => ({ s.obs with queries := q } : Observation)) (List.append_assoc _ [_] [_])

/-! ## The drive asked for its TOC (R224, R248) -/

/-- A drive that is not ready gives no TOC. -/
theorem tocIfReady_not_ready {s : State} (h : ¬ s.ready) : ∃ answers, tocIfReady s =
    (none, driveAsked (if s.trayOpen then [] else [.isDiscPresent]) answers s.tocCache s.sectNum s) := by
  obtain ⟨answers, e⟩ := discReady_not_ready s h
  exact ⟨answers, by rw [tocIfReady, e]; rfl⟩

/-- A ready drive is asked for the TOC. -/
theorem tocIfReady_ready {s : State} (h : s.ready) : tocIfReady s = cachedToc (askedPresent s) := by
  rw [tocIfReady, discReady_ready s h]
  rfl

/-- A ready drive without a TOC gives none. -/
theorem tocIfReady_lacks {s : State} (ready : s.ready) (lacks : s.lacksToc) : ∃ answers, tocIfReady s =
    (none, driveAsked [.isDiscPresent, .getTOC] answers s.tocCache s.sectNum s) := by
  refine ⟨(askedPresent s).answers, ?_⟩
  have queries : s.obs.queries ++ [.isDiscPresent, .getTOC] = s.obs.queries ++ [.isDiscPresent] ++ [.getTOC] :=
    (List.append_assoc _ [_] [_]).symm
  rw [tocIfReady_ready ready, cachedToc_lacks (askedPresent s) lacks, driveAsked, queries]
  rfl

/-- A ready drive with a TOC gives it and leaves it cached. -/
theorem tocIfReady_has {s : State} {toc : Toc} (ready : s.ready) (has : s.hasToc toc) : ∃ answers, tocIfReady s =
    (some toc, driveAsked (tocQueries s) answers (some toc) (sectNumWith s.unitStatus toc s) s) := by
  refine ⟨(askedPresent s).answers, ?_⟩
  have queries : tocQueries s = [.isDiscPresent] ++ (if s.tocCache = none then [.getTOC] else []) := by
    rw [tocQueries]
    split <;> rfl
  rw [tocIfReady_ready ready, cachedToc_hasToc (s := askedPresent s) has, driveAsked, queries, ← List.append_assoc]
  rfl

/-- An awaited packet that answers with bytes about the drive changes what the response and the question change. -/
theorem runPacket_answers {opcode : Byte} {h : Params → Act} {p : Params} {s : State} {bytes : List Byte}
    {asked : List Query} {answers : Answers} {cache : Option Toc} {sectNum : Byte} (a : s.awaiting)
    (fits : bytes.length ≤ 65536)
    (run : h p (dispatched opcode p s) =
      pioRespond bytes .pioEnd (driveAsked asked answers cache sectNum (dispatched opcode p s))) :
    ∃ t, runPacket opcode h p s = .next t ∧ PacketResponds bytes 0x7F#8 asked s t ∧
      t.packet = { b := opcode :: p.toList, index := 12 } ∧
      t = { s with state := t.state, status := t.status, intReason := t.intReason, readParams := t.readParams,
                   pioLimit := t.pioLimit, intrq := t.intrq, obs := t.obs, packet := t.packet, byteCount := t.byteCount,
                   pio := t.pio, answers := t.answers, tocCache := cache, sectNum := sectNum } := by
  obtain ⟨t, e, responds, frame⟩ := packetResponds_respond bytes 0x7F#8 asked s
    (driveAsked asked answers cache sectNum (dispatched opcode p s)) fits (status_packet_answered s.status)
    (status_packet_phase s.status) rfl rfl rfl rfl rfl rfl
  refine ⟨t, runPacket_next opcode h p s t a (run.trans e), responds, ?_, ?_⟩
  · rw [frame]
    rfl
  · rw [frame]
    rfl

/-! ## REQ_STAT (R223, R224) -/

/-- The status block in the bytes of R224. -/
theorem statBlock_eq (toc : Option Toc) (s : State) :
    statBlock toc s = [0#4 ++ s.unitStatus, s.discFormat ++ s.cdda.repeats] ++
      underTrack (trackOf toc s.cdda.current) ++ (fadBytes s.cdda.current ++ [s.hwInfo.getD 9 0, 0x00]) := by
  have wide (v : BitVec 4) : v.setWidth 8 = 0#4 ++ v := by
    revert v
    decide
  rw [statBlock, wide]
  cases trackOf toc s.cdda.current <;> rfl

/-- A sector-number register written from a TOC reads back as its two fields. -/
theorem sectNumWith_fields (unit : BitVec 4) (toc : Toc) (s : State) :
    (sectNumWith unit toc s).extractLsb' 0 4 = unit ∧
    (sectNumWith unit toc s).extractLsb' 4 4 = if s.tocCache = none then toc.discFormat else s.discFormat :=
  ⟨BitVec.extractLsb'_append_eq_right, BitVec.extractLsb'_append_eq_left⟩

/-- Settles O35: the block is the one of the state after the question, whose fields the three cases give. -/
theorem reqStatReportsTheDrive : Obligations.ReqStatReportsTheDrive := by
  intro p s a block
  have fits (b : List Byte) : (window b p.b2.toNat p.b4.toNat).length ≤ 65536 := by
    have := p.b4.isLt
    rw [window_length]
    omega
  have run {toc : Option Toc} {v : State} (query : tocIfReady (dispatched 0x10 p s) = (toc, v)) :
      spiReqStat p (dispatched 0x10 p s) = pioRespond (window (statBlock toc v) p.b2.toNat p.b4.toNat) .pioEnd v := by
    rw [spiReqStat, query]
    rfl
  refine ⟨fun notReady => ?_, fun ready lacks => ?_, fun toc ready has => ?_⟩
  · obtain ⟨answers, query⟩ := tocIfReady_not_ready (s := dispatched 0x10 p s) notReady
    exact runPacket_answers a (fits _) ((run query).trans (by rw [statBlock_eq]; rfl))
  · obtain ⟨answers, query⟩ := tocIfReady_lacks (s := dispatched 0x10 p s) ready lacks
    exact runPacket_answers a (fits _) ((run query).trans (by rw [statBlock_eq]; rfl))
  · obtain ⟨answers, query⟩ := tocIfReady_has (s := dispatched 0x10 p s) ready has
    obtain ⟨unit, format⟩ := sectNumWith_fields s.unitStatus toc s
    have reported : statBlock (some toc) (driveAsked (tocQueries s) answers (some toc) (sectNumWith s.unitStatus toc s)
        (dispatched 0x10 p s)) =
        block (if s.tocCache = none then toc.discFormat else s.discFormat) (trackAt toc s.cdda.current) := by
      rw [statBlock_eq, State.unitStatus, State.discFormat, unit, format]
      rfl
    exact runPacket_answers a (fits _) ((run query).trans (by rw [← reported]; rfl))

/-! ## GET_SCD (R248) -/

/-- The position block in the bytes of R248. -/
theorem positionBlock_eq (toc : Option Toc) (c : Cdda) :
    positionBlock toc c = [0x00, audioStatus c.status, 0x00, 0x0E] ++ underTrack (trackOf toc c.current) ++
      (fadBytes (relativeFad (trackOf toc c.current) c.current) ++ (0x00 :: fadBytes c.current)) := by
  rw [positionBlock]
  cases trackOf toc c.current <;> rfl

/-- The data format of GET_SCD as a number (R141). -/
theorem format_eq_one (p : Params) : p.format = 1 ↔ p.b1.toNat % 16 = 1 := by
  have low : ∀ b : Byte, b.extractLsb' 0 4 = 1 ↔ b.toNat % 16 = 1 := by decide
  exact low p.b1

/-- Settles O43: the format is tested before anything is asked; the block is the one of the TOC that is then answered. -/
theorem getScdReportsThePosition : Obligations.GetScdReportsThePosition := by
  intro p s a audio cur block len
  have length : p.alloc16.toNat = len := be16_toNat p.b3 p.b4
  have fits (b : List Byte) : (window b 0 len).length ≤ 65536 := by
    have := p.alloc16.isLt
    rw [window_length]
    omega
  have run {toc : Option Toc} {asked : List Query} {answers : Answers} {cache : Option Toc} {sectNum : Byte}
      (one : p.b1.toNat % 16 = 1)
      (query : tocIfReady (dispatched 0x40 p s) = (toc, driveAsked asked answers cache sectNum (dispatched 0x40 p s))) :
      spiGetScd p (dispatched 0x40 p s) = pioRespond (window (block (trackOf toc cur)) 0 len) .pioEnd
        (driveAsked asked answers cache sectNum (dispatched 0x40 p s)) := by
    have reported : positionBlock toc s.cdda = block (trackOf toc cur) := by
      rw [positionBlock_eq]
      cases trackOf toc cur <;> rfl
    rw [spiGetScd, if_pos ((format_eq_one p).mpr one), query, length, ← reported]
    rfl
  refine ⟨fun other => ?_, fun one notReady => ?_, fun one ready lacks => ?_, fun toc one ready has => ?_⟩
  · have rejected : spiGetScd p (dispatched 0x40 p s) = .ok (failField (dispatched 0x40 p s)) :=
      if_neg fun one => other ((format_eq_one p).mp one)
    refine ⟨_, runPacket_next 0x40 spiGetScd p s _ a rejected, ?_, rfl, rfl⟩
    exact commandFails_packet _ _ .ili [] s _ rfl rfl (by simp) rfl rfl
  · obtain ⟨answers, query⟩ := tocIfReady_not_ready (s := dispatched 0x40 p s) notReady
    exact runPacket_answers a (fits _) (run one query)
  · obtain ⟨answers, query⟩ := tocIfReady_lacks (s := dispatched 0x40 p s) ready lacks
    exact runPacket_answers a (fits _) (run one query)
  · obtain ⟨answers, query⟩ := tocIfReady_has (s := dispatched 0x40 p s) ready has
    exact runPacket_answers a (fits _) (run one query)

end Sys2Proof.Machine
end

section
/-! What drains a chunk or a batch of a sector read, settled: the DATA read, the DMA read's first batch and `DmaPull`. -/

namespace Sys2Proof.Machine

open Sys2Proof

/-! ## The DATA read (R164) -/

/-- A DATA read that is applied goes on to what it leaves. -/
theorem exec_rData_next {n : Nat} {s t : State} (live : s.live) (e : hostReadData n s = .ok t) :
    exec (.rData n) s = .next t := by
  refine (whileLive_live s _ live).trans ?_
  rw [e]

/-- A DATA read in its phase takes the word at the cursor. -/
theorem hostReadData_takes {s : State} (phase : s.state = .pioSendData) (left : s.pio.cursor < s.pio.size) :
    hostReadData 2 s = endPhaseIfDrained (wordRead s) := by
  have read : pioRead s = .ok (pioWord s s.pio.cursor, { s with pio := { s.pio with cursor := s.pio.cursor + 1 } }) :=
    if_pos left
  rw [hostReadData, if_neg (not_not.mpr phase), if_neg (by decide), read]

/-- The last word read, and DRQ fallen (R86, R164). -/
abbrev lastWordRead (s : State) : State := (wordRead s).putStatus drqBit false

/-- The read of the last word enters the continuation (R86). -/
theorem hostReadData_drains {s : State} (phase : s.state = .pioSendData) (last : s.pio.cursor + 1 = s.pio.size) :
    hostReadData 2 s = enter s.pio.nextState (lastWordRead s) := by
  rw [hostReadData_takes phase (by omega)]
  rcases endPhaseIfDrained_cases (wordRead s) with ⟨-, e⟩ | ⟨more, -⟩
  · exact e
  · exact absurd last more

/-- The status path from a drained response to a plain completion (R176, R177). -/
theorem status_response_done (w : Byte) :
    putBit (putBit (putBit (putBit (putBit (putBit (putBit w drqBit false) drqBit false) drdyBit true) drqBit false) bsyBit false)
      drdyBit true) bsyBit false = (w &&& 0x77#8) ||| 0x40#8 := by
  revert w
  decide

/-- Settles O18: the cursor moves on, and at the end of a response the command completes. -/
theorem dataReadTakesTheNextWord : Obligations.DataReadTakesTheNextWord := by
  unfold Obligations.DataReadTakesTheNextWord
  refine ⟨fun s live phase more => ?_, fun s live phase last next => ?_⟩
  · refine exec_rData_next live ((hostReadData_takes phase (by omega)).trans ?_)
    rcases endPhaseIfDrained_cases (wordRead s) with ⟨drained, -⟩ | ⟨-, e⟩
    · exact absurd drained (Nat.ne_of_lt more)
    · exact e
  · have run : hostReadData 2 s = .ok (enterPioEnd (lastWordRead s)) := by
      rw [hostReadData_drains phase last, next]
      rfl
    refine ⟨_, exec_rData_next live run, ?_, rfl⟩
    rw [enterPioEnd_eq]
    exact commandEnds_done _ _ _ _ _ (status_response_done s.status) rfl
      (congrArg (fun q => ({ (wordRead s).obs with queries := q } : Observation)) (List.append_nil _).symm)

/-! ## The engine's PIO path on a drained chunk (R291) -/

/-- With bytes cached the next chunk is offered. -/
theorem enterReadsectorPio_continues {s : State} (left : s.dma.cursor ≠ s.dma.size) :
    enterReadsectorPio s = .ok (chunkOffered (engaged .readsectorPio s)) := by
  simp [enterReadsectorPio, dmaIsEmpty, left, offerChunk_eq]

/-- With nothing left the read completes. -/
theorem enterReadsectorPio_done {s : State} (empty : s.dma.cursor = s.dma.size) (done : s.readParams.remaining = 0) :
    enterReadsectorPio s = .ok (enterPioEnd (engaged .readsectorPio s)) := by
  simp [enterReadsectorPio, dmaIsEmpty, empty, done]

/-- A chunk is what the limit allows of the bytes cached (R291). -/
theorem chunkOffered_eq (s : State) : chunkOffered s =
    responding (Memory.slice s.dma.data s.dma.cursor (min (2 * (s.pioLimit.toNat / 2)) (s.dma.size - s.dma.cursor)))
      .readsectorPio { s with dma := { s.dma with
        cursor := s.dma.cursor + min (2 * (s.pioLimit.toNat / 2)) (s.dma.size - s.dma.cursor) } } := by
  rw [chunkOffered, chunkLimit_eq]
  rfl

/-- The status path from a drained chunk to the next (R174, R291). -/
theorem status_next_chunk (w : Byte) :
    putBit (putBit (putBit (putBit w drqBit false) bsyBit true) drqBit true) bsyBit false = (w &&& 0x77#8) ||| 0x08#8 := by
  revert w
  decide

/-- Settles O20: the continuation is the engine's PIO path, which offers, completes, refills or fails. -/
theorem lastWordOfAChunkGoesOn : Obligations.LastWordOfAChunkGoesOn := by
  intro s live phase last next w r lim n
  have goes {t : State} (e : enterReadsectorPio (lastWordRead s) = .ok t) : exec (.rData 2) s = .next t := by
    refine exec_rData_next live ((hostReadData_drains phase last).trans ?_)
    rw [next]
    exact e
  have unasked : r.obs = { r.obs with queries := r.obs.queries ++ [] } := by rw [List.append_nil]
  refine ⟨?cached, ?completes, ?refills, ?fails⟩
  case cached =>
    intro left _
    have run := (enterReadsectorPio_continues (s := lastWordRead s) (Nat.ne_of_lt left)).trans
      (congrArg Except.ok (chunkOffered_eq _))
    refine ⟨_, Memory.slice s.dma.data s.dma.cursor (min lim (s.dma.size - s.dma.cursor)), goes run,
      Memory.slice_length _ _ _, ?_, ?_, ?_⟩
    · exact fun i hi => Memory.slice_getD _ _ _ i (by rwa [Memory.slice_length] at hi)
    · exact phaseToHost_responding _ 0x77#8 _ [] r _ (status_next_chunk s.status) rfl unasked rfl
    · rw [Memory.slice_length]
      rfl
  case completes =>
    intro empty done
    refine ⟨_, goes (enterReadsectorPio_done empty done), ?_, rfl⟩
    rw [enterPioEnd_eq]
    exact commandEnds_done _ _ _ r _ (status_block_done s.status) rfl unasked
  case refills =>
    intro size sectors empty some _ sized answer length
    have run := (enterReadsectorPio_refills (s := lastWordRead s) empty (Nat.ne_of_gt some) ⟨sized, length⟩
      answer).trans (congrArg Except.ok (chunkOffered_refilled length _))
    refine ⟨_, goes run, ?_, rfl, rfl, ?_, ?_, rfl, rfl, rfl, rfl⟩
    · exact phaseToHost_responding _ 0x77#8 _ _ r _ (status_next_chunk s.status) rfl rfl rfl
    · exact fun a ha => Memory.read_load_inside _ _ _ (length ▸ ha)
    · exact fun a ha => Memory.read_load_outside _ _ _ (length ▸ ha)
  case fails =>
    intro size empty some sized wrong
    refine ⟨_, goes (enterReadsectorPio_fails empty (Nat.ne_of_gt some) sized wrong), ?_, ?_⟩
    · exact readFails_readFail _ r ((engaged .readsectorPio (lastWordRead s)).asking (refillQuery s))
        rfl rfl rfl rfl rfl rfl
    · rw [readFail_frame]
      rfl

/-! ## The DMA service (R295) -/

/-- With nothing left the read completes. -/
theorem dmaService_done {s : State} (empty : s.dma.cursor = s.dma.size) (done : s.readParams.remaining = 0) :
    dmaService s = .ok (enterProcpacketdone .complete s) := by
  simp [dmaService, dmaIsEmpty, empty, done]

/-- With bytes cached it waits for the DMA engine. -/
theorem dmaService_waits {s : State} (left : s.dma.cursor ≠ s.dma.size) : dmaService s = .ok s := by
  simp [dmaService, dmaIsEmpty, left]

/-- An answer of the right length is fetched. -/
theorem dmaService_refills {s : State} {size : Nat} {bytes : List Byte} (empty : s.dma.cursor = s.dma.size)
    (some : s.readParams.remaining ≠ 0) (r : Refills s size bytes) (answer : s.answers.sectors = .some bytes) :
    dmaService s = .ok (refilled (min 16 s.readParams.remaining) size bytes s) := by
  obtain ⟨sized, length⟩ := r
  rcases dmaFill_cases s with ⟨h, -⟩ | ⟨-, none, -⟩ | ⟨-, size', bytes', hs, ha, -, f⟩ | ⟨-, size', hs, wrong, -⟩
  · exact absurd empty h
  · cases sized.symm.trans none
  · cases sized.symm.trans hs
    cases answer.symm.trans ha
    simp [dmaService, dmaIsEmpty, empty, some, f]
  · cases sized.symm.trans hs
    exact absurd length (wrong bytes answer)

/-- Without one the read fails. -/
theorem dmaService_fails {s : State} {size : Nat} (empty : s.dma.cursor = s.dma.size)
    (some : s.readParams.remaining ≠ 0) (sized : sectorSize s.cfg s.readParams.sectorType = .some size)
    (wrong : ∀ bytes, s.answers.sectors = .some bytes → bytes.length ≠ min 16 s.readParams.remaining * size) :
    dmaService s = .ok (readFail (s.asking (refillQuery s))) := by
  rcases dmaFill_cases s with ⟨h, -⟩ | ⟨-, none, -⟩ | ⟨-, size', bytes', hs, ha, length, -⟩ | ⟨-, size', -, -, f⟩
  · exact absurd empty h
  · cases sized.symm.trans none
  · cases sized.symm.trans hs
    exact absurd length (wrong bytes' ha)
  · simp [dmaService, dmaIsEmpty, empty, some, f]

/-! ## The first batch of a DMA read (R286, R294) -/

/-- A DMA read with a size enters the engine (R286). -/
theorem readStart_dma {p : Params} {count size : Nat} {s : State} (ready : s.ready) (dma : s.dmaEnable = true)
    (sized : sectorSize s.cfg p.sectorType = some size) :
    readStart p count s = dmaService (engaged .readsectorDma (readBegun p count (askedPresent s))) := by
  have unlimited : ¬ (s.dmaEnable = false ∧ 0 < count ∧ s.byteCount.toNat < 2) := by simp [dma]
  simp only [readStart, sized, needReady_ready _ _ ready]
  exact (if_neg unlimited).trans (if_pos dma)

/-- The status path from a packet's dispatch to the wait for the DMA engine (R173, R294). -/
theorem status_dma_waits (w : Byte) :
    putBit (putBit (putBit w drqBit false) bsyBit true) bsyBit true = (w &&& 0x77#8) ||| 0x80#8 := by
  revert w
  decide

/-- Settles O53: the read is begun with an empty DmaBuffer, so the service refills it or fails. -/
theorem dmaReadFetchesTheFirstBatch : Obligations.DmaReadFetchesTheFirstBatch := by
  intro i opcode p count size s a ready dma reads some sized n asked
  have begun : exec i s = applied s (dmaService (engaged .readsectorDma (readOf opcode p count s))) := by
    rw [exec_readsSectors a reads, readStart_dma (s := dispatched opcode p s) ready dma sized]
  have remaining : (engaged .readsectorDma (readOf opcode p count s)).readParams.remaining ≠ 0 := Nat.ne_of_gt some
  have shown : s.obs.queries ++ [.isDiscPresent] ++ [.readSectors p.readStart.toNat n p.sectorType] =
      s.obs.queries ++ asked := by
    rw [readStart_toNat, List.append_assoc]
    rfl
  refine ⟨?fetched, ?failed⟩
  case fetched =>
    intro sectors answer length
    rw [begun, dmaService_refills rfl remaining ⟨sized, length⟩ answer, ← readStart_toNat]
    refine ⟨_, rfl, rfl, status_dma_waits s.status, rfl, rfl, rfl, rfl, rfl, ?low, ?high, ?shown, rfl⟩
    case low => exact fun k hk => Memory.read_load_inside _ _ _ (length ▸ hk)
    case high => exact fun k hk => Memory.read_load_outside _ _ _ (length ▸ hk)
    case shown =>
      rw [Shows, ← shown, List.append_nil]
      rfl
  case failed =>
    intro wrong
    rw [begun, dmaService_fails rfl remaining sized wrong]
    refine ⟨_, rfl, ?_, ?_, ?_⟩
    · exact readFails_readFail asked s ((engaged .readsectorDma (readOf opcode p count s)).asking
        (refillQuery (readOf opcode p count s))) (status_read_busy s.status) rfl
        (congrArg (fun q => ({ s.obs with queries := q } : Observation)) shown) rfl rfl rfl
    · rw [readFail_frame]
      rfl
    · rw [readFail_frame]
      rfl

/-! ## `DmaPull` (R297) -/

/-- A failure writes the state, DRQ and BSY itself, so a dispatch before it makes no difference (R345). -/
theorem raiseFail_startPacket (e : Sense) (b : ErrorBit) (s : State) :
    raiseFail e b .spi (startPacket s) = raiseFail e b .spi s := by
  have failed (w : Byte) : putBit (putBit (putBit (putBit (putBit (putBit w checkBit true) drdyBit true) drqBit false)
      bsyBit false) drdyBit true) bsyBit false = (w &&& 0x77#8) ||| 0x41#8 := by
    revert w
    decide
  have status : (raiseFail e b .spi (startPacket s)).status = (raiseFail e b .spi s).status :=
    (status_packet_failed s.status).trans (failed s.status).symm
  exact congrArg (fun w => { raiseFail e b .spi s with status := w }) status

/-- Nor does it before a read that fails (R290). -/
theorem readFail_startPacket (s : State) : readFail (startPacket s) = readFail s := by
  have ready : discReady (startPacket s) = ((discReady s).1, startPacket (discReady s).2) := by
    rcases discReady_cases s with ⟨opened, e⟩ | ⟨closed, e⟩
    · rw [e]
      exact if_pos opened
    · rw [e]
      exact if_neg (Bool.eq_false_iff.mp closed)
  rw [readFail, ready, readFail]
  split
  · exact raiseFail_startPacket _ _ _
  · exact raiseFail_startPacket _ _ _

/-- A pull in its phase of no more than is unread takes the bytes and has the service go on. -/
theorem exec_dmaPull {len : Nat} {s t : State} (live : s.live) (phase : s.state = .readsectorDma)
    (within : len ≤ s.dma.size - s.dma.cursor)
    (e : dmaService { s.returning (.bytes (Memory.slice s.dma.data s.dma.cursor len)) with
      dma := { s.dma with cursor := s.dma.cursor + len } } = .ok t) :
    exec (.dmaPull len) s = .next t := by
  have pulled : dmaPullBytes len s = .ok t := by
    rcases dmaRead_cases len s with ⟨-, read⟩ | ⟨past, -⟩
    · rw [dmaPullBytes, if_neg (not_not.mpr phase), read]
      exact e
    · exact absurd within (Nat.not_le.mpr past)
  refine (whileLive_live s _ live).trans ?_
  rw [pulled]

/-- The bytes that stand in the memory from an address on are its slice there. -/
theorem Memory.eq_slice {m : Memory} {a n : Nat} {r : List Byte} (length : r.length = n)
    (h : ∀ j, j < n → r.getD j 0 = Memory.read m (a + j)) : r = Memory.slice m a n := by
  refine List.ext_getElem (by rw [length, Memory.slice_length]) fun j hj hj' => ?_
  rw [← List.getD_eq_getElem _ 0 hj, ← List.getD_eq_getElem _ 0 hj', Memory.slice_getD m a n j (length ▸ hj)]
  exact h j (length ▸ hj)

/-- Settles O56: the pull takes its bytes, and the service waits, completes, refills or fails. -/
theorem dmaPullMovesOn : Obligations.DmaPullMovesOn := by
  intro len s live phase waiting r length bytes n asked u
  have goes {t : State} (within : len ≤ s.dma.size - s.dma.cursor) (e : dmaService u = .ok t) :
      exec (.dmaPull len) s = .next t := by
    refine exec_dmaPull live phase within ?_
    rw [← Memory.eq_slice length bytes]
    exact e
  have drained (all : len = s.dma.size - s.dma.cursor) : u.dma.cursor = u.dma.size := by
    show s.dma.cursor + len = s.dma.size
    omega
  refine ⟨?waits, ?completes, ?refills, ?fails⟩
  case waits =>
    intro some
    refine goes (Nat.le_of_lt some) (dmaService_waits ?_)
    show s.dma.cursor + len ≠ s.dma.size
    omega
  case completes =>
    intro all done
    refine ⟨_, goes (Nat.le_of_eq all) (dmaService_done (drained all) done), ?_, rfl⟩
    exact commandEnds_done _ _ _ u u (status_done s.status) rfl (by rw [List.append_nil])
  case refills =>
    intro size sectors all some sized answer total
    have run := dmaService_refills (drained all) (Nat.ne_of_gt some) ⟨sized, total⟩ answer
    refine ⟨_, goes (Nat.le_of_eq all) run, rfl, rfl, ?_, ?_, rfl, ?_, rfl⟩
    · exact fun a ha => Memory.read_load_inside _ _ _ (total ▸ ha)
    · exact fun a ha => Memory.read_load_outside _ _ _ (total ▸ ha)
    · rw [Shows, List.append_nil]
      rfl
  case fails =>
    intro size all some sized wrong
    refine ⟨_, goes (Nat.le_of_eq all) (dmaService_fails (drained all) (Nat.ne_of_gt some) sized wrong), ?_, ?_⟩
    · rw [← readFail_startPacket]
      exact readFails_readFail asked u (startPacket (u.asking (refillQuery u))) rfl rfl rfl rfl rfl rfl
    · rw [readFail_frame]
      rfl

end Sys2Proof.Machine
end

section
/-! Records and the operations they stand for (R120 to R126, R145), settled. -/

namespace Sys2Proof

/-! ## Each format of a record is read back (log entry 1) -/

theorem accessSize_byte {n : Nat} (h : accessSizeOk n = true) : (BitVec.ofNat 8 n).toNat = n := by
  simp only [accessSizeOk, Bool.and_eq_true, decide_eq_true_eq] at h
  rw [BitVec.toNat_ofNat, Nat.mod_eq_of_lt h.2]

theorem decode_encodeRead {n : Nat} (h : accessSizeOk n = true) (sel : Byte) :
    decode (encodeRead sel n) = decodeRead sel n := by
  show decodeRead sel (BitVec.ofNat 8 n).toNat = _
  rw [accessSize_byte h]

/-- The two bytes of a written value join to the value. -/
theorem half_of_bytes (v : Half) : v.extractLsb' 8 8 ++ v.extractLsb' 0 8 = v := by
  have whole : v.extractLsb' 8 8 ++ v.extractLsb' 0 8 = v.extractLsb' 0 (8 + 8) :=
    BitVec.extractLsb'_append_extractLsb'_eq_extractLsb' rfl
  exact whole.trans BitVec.extractLsb'_eq_self

theorem decode_encodeWrite {n : Nat} {v : Half} (h : writeOk n v = true) (sel : Byte) :
    decode (encodeWrite sel n v) = decodeWrite sel n v := by
  simp only [writeOk, Bool.and_eq_true] at h
  show decodeWrite sel (BitVec.ofNat 8 n).toNat (v.extractLsb' 8 8 ++ v.extractLsb' 0 8) = _
  rw [accessSize_byte h.1, half_of_bytes]

theorem decode_encodeAta (code : Byte) : decode (encodeAta code) = .ok (decodeAta code) := rfl

theorem decode_encodePacket (opcode : Byte) (p : Params) : decode (encodePacket opcode p) = .ok (decodePacket opcode p) := rfl

theorem decode_encodeEvent (code : Byte) (operand : List Byte) : decode (encodeEvent code operand) = decodeEvent code operand :=
  rfl

/-- The four bytes of a pull length join to the length. -/
theorem decodeEvent_pull {len : Nat} (h : len < 2 ^ 32) : decodeEvent 1 (bytesOfNat 4 len) = .ok (.dmaPull len) := by
  have joined : nat32 (.ofNat 8 len) (.ofNat 8 (len / 256)) (.ofNat 8 (len / 256 / 256))
      (.ofNat 8 (len / 256 / 256 / 256)) = len := by
    simp only [nat32, BitVec.toNat_ofNat]
    omega
  show Except.ok (Instr.dmaPull (nat32 _ _ _ _)) = _
  rw [joined]

/-! ## The catch-all rows (R122, R126) -/

theorem ataOp_unknown {code : Byte} (h : code ∉ ataCodes) : ataOp code = .other := by
  revert code
  decide

theorem spiOp_unrecognized {opcode : Byte} (h : opcode ∉ spiOpcodes) : spiOp opcode = .other := by
  revert opcode
  decide

theorem decodeAta_unknown {code : Byte} (h : code ∉ ataCodes) : decodeAta code = .ataUnknown code := by
  rw [decodeAta, ataOp_unknown h]

theorem decodePacket_unrecognized {opcode : Byte} (h : opcode ∉ spiOpcodes) (p : Params) :
    decodePacket opcode p = .spiUnrecognized opcode p := by
  rw [decodePacket, spiOp_unrecognized h]

/-- Settles O3: each format reads back its operands, and each code, opcode, selector and event number its row. -/
theorem decodeOfEncodeIsTheOperation : Obligations.DecodeOfEncodeIsTheOperation := by
  intro i wf
  cases i with
  | rData n => exact decode_encodeRead wf 0
  | rError n => exact decode_encodeRead wf 1
  | rIntreason n => exact decode_encodeRead wf 2
  | rSectnum n => exact decode_encodeRead wf 3
  | rBclow n => exact decode_encodeRead wf 4
  | rBchigh n => exact decode_encodeRead wf 5
  | rDrivesel n => exact decode_encodeRead wf 6
  | rStatus n => exact decode_encodeRead wf 7
  | wData n v => exact decode_encodeWrite wf 0
  | wFeatures n v => exact decode_encodeWrite wf 1
  | wSectcount n v => exact decode_encodeWrite wf 2
  | wSectnum n v => exact decode_encodeWrite wf 3
  | wBclow n v => exact decode_encodeWrite wf 4
  | wBchigh n v => exact decode_encodeWrite wf 5
  | wDrivesel n v => exact decode_encodeWrite wf 6
  | wCommand n v => exact decode_encodeWrite wf 7
  | nop => exact decode_encodeAta 0x00
  | softReset => exact decode_encodeAta 0x08
  | execDiag => exact decode_encodeAta 0x90
  | spiPacket => exact decode_encodeAta 0xA0
  | identifyDevice => exact decode_encodeAta 0xA1
  | identify => exact decode_encodeAta 0xEC
  | setFeatures => exact decode_encodeAta 0xEF
  | ataUnknown code =>
    have unknown : code ∉ ataCodes := by simpa [Instr.wellFormed] using wf
    exact (decode_encodeAta code).trans (congrArg _ (decodeAta_unknown unknown))
  | testUnit p => exact decode_encodePacket 0x00 p
  | reqStat p => exact decode_encodePacket 0x10 p
  | reqMode p => exact decode_encodePacket 0x11 p
  | setMode p => exact decode_encodePacket 0x12 p
  | reqError p => exact decode_encodePacket 0x13 p
  | getToc p => exact decode_encodePacket 0x14 p
  | reqSes p => exact decode_encodePacket 0x15 p
  | cdOpen p => exact decode_encodePacket 0x16 p
  | cdPlay p => exact decode_encodePacket 0x20 p
  | cdSeek p => exact decode_encodePacket 0x21 p
  | cdScan p => exact decode_encodePacket 0x22 p
  | cdRead p => exact decode_encodePacket 0x30 p
  | cdRead2 p => exact decode_encodePacket 0x31 p
  | getScd p => exact decode_encodePacket 0x40 p
  | spiUnrecognized opcode p =>
    have unrecognized : opcode ∉ spiOpcodes := by simpa [Instr.wellFormed] using wf
    exact (decode_encodePacket opcode p).trans (congrArg _ (decodePacket_unrecognized unrecognized p))
  | dmaAvail => exact decode_encodeEvent 0 []
  | dmaPull len =>
    have small : len < 2 ^ 32 := of_decide_eq_true wf
    exact (decode_encodeEvent 1 _).trans (decodeEvent_pull small)
  | cddaAdvance => exact decode_encodeEvent 2 []
  | trayClose => exact decode_encodeEvent 3 []
  | hardReset => exact decode_encodeEvent 4 []

/-- Settles O2: each record is the one its operation encodes to, so it is read back. -/
theorem handWrittenRecordsDecode : Obligations.HandWrittenRecordsDecode := by
  have written {i : Instr} {record : List Byte} (encoded : encode i = record) (wf : i.wellFormed = true) :
      decode record = .ok i := encoded ▸ decodeOfEncodeIsTheOperation i wf
  refine ⟨?_, ?_, ?_, ?_, ?_, ?_, ?_, ?_, ?_, ?_⟩
  all_goals exact written rfl rfl

end Sys2Proof
end

section
/-! Operations that no table row names, and the packets about the hardware-info block, the pending error and the sessions,
settled. -/

namespace Sys2Proof.Machine

open Sys2Proof

/-! ## Codes and opcodes outside the tables (R208, R252) -/

/-- The command path to a failure. -/
theorem status_command_failed (w : Byte) :
    putBit (putBit (putBit (putBit (putBit (putBit w bsyBit true) drdyBit false) checkBit true) drqBit false) drdyBit true)
      bsyBit false = (w &&& 0x77#8) ||| 0x41#8 := by
  revert w
  decide

theorem ataHandler_unknown {code : Byte} (h : code ∉ ataCodes) : ataHandler code = ataUnknownCode := by
  funext s
  rw [ataHandler, ataOp_unknown h]

/-- Settles O32: the command is accepted and its handler fails at the ATA level. -/
theorem unknownCommandFails : Obligations.UnknownCommandFails := by
  intro code i s unknown writes quiet
  obtain ⟨idle, live⟩ := quiet
  have accepted : commandWrite code ataUnknownCode s = ataUnknownCode (acceptCommand s) := by
    rcases commandWrite_cases code ataUnknownCode s with ⟨-, busy, -⟩ | ⟨-, e⟩
    · exact absurd idle busy
    · exact e
  rw [exec_writesCommand live writes, ataHandler_unknown unknown, accepted, ← status_command_failed s.status]
  exact congrArg (fun st => Host.Outcome.next { raiseFail ⟨0x5, 0x20, 0x00⟩ .abrt .ata (acceptCommand s) with state := st })
    idle.symm

/-- Settles O44: the handler is the failure procedure. -/
theorem unrecognizedOpcodeFails : Obligations.UnrecognizedOpcodeFails := by
  intro opcode p s a
  refine ⟨_, runPacket_next opcode spiUnrecognizedOpcode p s _ a rfl, ?_, rfl, rfl⟩
  exact commandFails_packet _ _ .ili [] s _ rfl rfl (by simp) rfl rfl

/-! ## Packets that ask the provider nothing (R228 to R236) -/

theorem window_fits (block : List Byte) (off : Nat) (len : Byte) : (window block off len.toNat).length ≤ 65536 := by
  have := len.isLt
  rw [window_length]
  omega

/-- Settles O37: the response is the window of the block. -/
theorem reqModeSendsTheBlock : Obligations.ReqModeSendsTheBlock := by
  intro p s a size
  obtain ⟨t, e, responds, frame⟩ := packetResponds_respond (window s.hwInfo p.b2.toNat p.b4.toNat) 0x7F#8 [] s
    (dispatched 0x11 p s) (window_fits _ _ _) (status_packet_answered s.status) (status_packet_phase s.status)
    rfl (by simp) rfl rfl rfl rfl
  refine ⟨t, window s.hwInfo p.b2.toNat p.b4.toNat, runPacket_next 0x11 spiReqMode p s t a e, ?_, ?_, responds, ?_, ?_⟩
  · rw [window_length, size]
  · intro j inside
    rw [window_length] at inside
    exact window_getD _ _ _ _ (by omega)
  · rw [frame]
    rfl
  · rw [frame]
    rfl

/-- The packet path of REQ_ERROR to a plain completion: CHECK falls too. -/
theorem status_collected_answered (w : Byte) :
    putBit (putBit (putBit (putBit (putBit (putBit (putBit (putBit w drqBit false) bsyBit true) checkBit false) drdyBit true)
      drqBit false) bsyBit false) drdyBit true) bsyBit false = ((w &&& 0x7E#8) &&& 0x77#8) ||| 0x40#8 := by
  revert w
  decide

/-- The packet path of REQ_ERROR to a data phase. -/
theorem status_collected_phase (w : Byte) :
    putBit (putBit (putBit (putBit (putBit w drqBit false) bsyBit true) checkBit false) drqBit true) bsyBit false =
      (w &&& 0x7E#8) ||| 0x08#8 := by
  revert w
  decide

/-- A four-bit field at the low end of a byte. -/
theorem setWidth_nibble (v : BitVec 4) : v.setWidth 8 = 0#4 ++ v := by
  revert v
  decide

/-- The sense block in the bytes of R236. -/
theorem senseBlock_eq (e : Sense) :
    senseBlock e = [0xF0, 0x00, 0#4 ++ e.key, 0x00, 0x00, 0x00, 0x00, 0x00, e.asc, e.ascq] := by
  rw [senseBlock, setWidth_nibble]

/-- A response that starts from a state without CHECK does not set it. -/
theorem check_of_packetResponds {bytes : List Byte} {asked : List Query} {s t : State}
    (h : PacketResponds bytes 0x7E#8 asked s t) : t.check = false := by
  have done : ∀ w : Byte, (((w &&& 0x7E#8) &&& 0x77#8) ||| 0x40#8).getLsbD 0 = false := by decide
  have phase : ∀ w : Byte, ((w &&& 0x7E#8) ||| 0x08#8).getLsbD 0 = false := by decide
  obtain ⟨empty, some⟩ := h
  by_cases none : bytes = []
  · exact (congrArg (·.getLsbD 0) (empty none).1.status).trans (done s.status)
  · exact (congrArg (·.getLsbD 0) (some none).1.status).trans (phase s.status)

/-- Settles O39: the sense is read before it is cleared, and the response follows. -/
theorem reqErrorCollectsTheError : Obligations.ReqErrorCollectsTheError := by
  intro p s a
  rw [← senseBlock_eq]
  obtain ⟨t, e, responds, frame⟩ := packetResponds_respond (window (senseBlock s.sense) 0 p.b4.toNat) 0x7E#8 [] s
    (collectError (dispatched 0x13 p s)) (window_fits _ _ _) (status_collected_answered s.status)
    (status_collected_phase s.status) rfl (by simp) rfl rfl rfl rfl
  refine ⟨t, runPacket_next 0x13 spiReqError p s t a e, responds, ?_, ?_, check_of_packetResponds responds, ?_, ?_⟩
  · rw [frame]
    rfl
  · rw [frame]
    rfl
  · rw [frame]
    rfl
  · rw [frame]
    rfl

/-! ## SET_MODE (R232, R233) -/

/-- A block is awaited, and an empty one checked at once (R181, R232). -/
theorem spiSetMode_eq (p : Params) (s : State) :
    spiSetMode p s =
      if p.b4.toNat = 0 then enterProcessSetMode (blockExpected ⟨p.b2, p.b4⟩ p.b4.toNat s)
      else .ok (enterPioGetData (blockExpected ⟨p.b2, p.b4⟩ p.b4.toNat s)) := by
  have fits : p.alloc8.toNat ≤ 65536 := by
    have := p.alloc8.isLt
    omega
  simp only [spiSetMode, pioReceive, pioFill_fits _ _ fits]
  rfl

/-- The check of a block follows its dispatch with BSY still 1. -/
theorem engaged_startPacket (st : GdState) (s : State) : engaged st (startPacket s) = { startPacket s with state := st } := by
  have still (w : Byte) : putBit (putBit w bsyBit true) bsyBit true = putBit w bsyBit true := by
    revert w
    decide
  exact congrArg (fun w => ({ startPacket s with state := st, status := w } : State)) (still _)

/-- An empty block stores nothing (R233). -/
theorem modeStored_empty {s : State} (empty : s.setMode.length.toNat = 0) (size : s.hwInfo.length = 32) :
    modeStored s = engaged .processSetMode s := by
  have kept : (modeStored s).hwInfo = s.hwInfo := by
    refine List.ext_getElem (by simp [size]) fun k _ inside => ?_
    have outside : ¬ (s.setMode.offset.toNat ≤ k ∧ k < s.setMode.offset.toNat + 0 ∧ modeByteWritable k = true) := by omega
    rw [List.getElem_map, List.getElem_range, modeByteAfter, empty, if_neg outside]
    simp [List.getD, inside]
  exact congrArg (fun b => ({ engaged .processSetMode s with hwInfo := b } : State)) kept

/-- The state in which the empty block of a SET_MODE packet is checked. -/
abbrev emptyBlock (p : Params) (s : State) : State :=
  { blockExpected ⟨p.b2, p.b4⟩ 0 (dispatched 0x12 p s) with state := .processSetMode }

/-- A SET_MODE packet with an empty block only checks its offset (R232, R233). -/
theorem spiSetMode_empty {p : Params} {s : State} (empty : p.b4 = 0) (size : s.hwInfo.length = 32) :
    (32 < p.b2.toNat ∧
      spiSetMode p (dispatched 0x12 p s) = .ok (raiseFail ⟨0x5, 0x26, 0x00⟩ .ili .spi (emptyBlock p s))) ∨
    (p.b2.toNat ≤ 32 ∧ spiSetMode p (dispatched 0x12 p s) = .ok (enterPioEnd (emptyBlock p s))) := by
  have zero : p.b4.toNat = 0 := congrArg BitVec.toNat empty
  have run : spiSetMode p (dispatched 0x12 p s) =
      enterProcessSetMode (blockExpected ⟨p.b2, p.b4⟩ 0 (dispatched 0x12 p s)) := by
    rw [spiSetMode_eq, if_pos zero, zero]
  have busy : engaged .processSetMode (blockExpected ⟨p.b2, p.b4⟩ 0 (dispatched 0x12 p s)) = emptyBlock p s :=
    engaged_startPacket .processSetMode (blockExpected ⟨p.b2, p.b4⟩ 0 { s with packet := Packet.full 0x12 p })
  have stored : modeStored (blockExpected ⟨p.b2, p.b4⟩ 0 (dispatched 0x12 p s)) = emptyBlock p s :=
    (modeStored_empty (s := blockExpected _ 0 (dispatched 0x12 p s)) zero size).trans busy
  rw [run]
  rcases enterProcessSetMode_cases (blockExpected ⟨p.b2, p.b4⟩ 0 (dispatched 0x12 p s)) with ⟨past, e⟩ | ⟨within, e⟩
  · replace past : 32 < p.b2.toNat + p.b4.toNat := past
    exact .inl ⟨by omega, by rw [e, busy]⟩
  · replace within : p.b2.toNat + p.b4.toNat ≤ 32 := within
    exact .inr ⟨by omega, by rw [e, stored]⟩

/-- Settles O38: the latch is set, and then the phase is opened or the empty block checked. -/
theorem setModeOpensTheReceivePhase : Obligations.SetModeOpensTheReceivePhase := by
  intro p s a size
  by_cases empty : p.b4 = 0
  · rcases spiSetMode_empty empty size with ⟨past, run⟩ | ⟨within, run⟩
    · refine ⟨_, runPacket_next 0x12 spiSetMode p s _ a run, rfl, rfl, rfl, fun some => absurd empty some,
        fun _ short => absurd short (Nat.not_le.mpr past), fun _ _ => ⟨?_, rfl⟩⟩
      exact commandFails_sameData _ _ .ili [] s (emptyBlock p s) rfl rfl (by simp) rfl rfl
    · refine ⟨_, runPacket_next 0x12 spiSetMode p s _ a run, rfl, rfl, rfl, fun some => absurd empty some,
        fun _ _ => ⟨?_, rfl⟩, fun _ long => absurd within (Nat.not_le.mpr long)⟩
      rw [enterPioEnd_eq]
      exact commandEnds_done .complete 0x40#8 [] s _ (status_block_done s.status) rfl (by simp)
  · have some : ¬ p.b4.toNat = 0 := fun zero => empty (BitVec.eq_of_toNat_eq zero)
    have run : spiSetMode p (dispatched 0x12 p s) =
        .ok (enterPioGetData (blockExpected ⟨p.b2, p.b4⟩ p.b4.toNat (dispatched 0x12 p s))) := by
      rw [spiSetMode_eq, if_neg some]
    refine ⟨_, runPacket_next 0x12 spiSetMode p s _ a run, rfl, rfl, rfl, fun _ => ?_, fun h => absurd h empty,
      fun h => absurd h empty⟩
    refine ⟨rfl, status_packet_phase s.status, reason_from_host s.intReason, ?_, rfl, rfl, ?_, rfl⟩
    · have := p.b4.isLt
      show (BitVec.ofNat 16 (2 * ((p.b4.toNat + 1) / 2))).toNat = _
      rw [BitVec.toNat_ofNat]
      omega
    · simp [Shows, enterPioGetData]

/-! ## REQ_SES (R244) -/

/-- The state after a ready drive was asked for its TOC and answered `toc`. -/
abbrev tocAnswered (answers : Answers) (toc : Toc) (s : State) : State :=
  driveAsked (tocQueries s) answers (some toc) (sectNumWith s.unitStatus toc s) s

/-- With a disc and a TOC at hand both questions let the packet go on. -/
theorem needToc_has {s : State} {toc : Toc} (ready : s.ready) (has : s.hasToc toc) :
    ∃ answers, ∀ k : Toc → Act, needToc k (askedPresent s) = k toc (tocAnswered answers toc s) := by
  obtain ⟨answers, e⟩ := tocIfReady_has ready has
  rw [tocIfReady_ready ready] at e
  exact ⟨answers, fun k => by rw [needToc, e]⟩

/-- The bytes of a session number the disc has, 0 for the whole disc (R244). -/
theorem sessionBlock_eq {toc : Toc} {k : Byte} {number : Byte} {fad : Fad} (unit : BitVec 4)
    (named : (k = 0 ∧ number.toNat = toc.sessions.length % 256 ∧ fad = toc.leadout.fad) ∨
      ∃ e, k ≠ 0 ∧ toc.sessions[k.toNat - 1]? = some e ∧ number = e.firstTrack ∧ fad = e.startFad) :
    k.toNat ≤ toc.sessions.length ∧ sessionBlock toc k.toNat unit = [0#4 ++ unit, 0x00, number] ++ fadBytes fad := by
  rcases named with ⟨rfl, count, rfl⟩ | ⟨e, some, found, rfl, rfl⟩
  · have counted : BitVec.ofNat 8 toc.sessions.length = number := BitVec.eq_of_toNat_eq (by rw [BitVec.toNat_ofNat, count])
    refine ⟨Nat.zero_le _, ?_⟩
    rw [← counted, ← setWidth_nibble]
    rfl
  · obtain ⟨j, hj⟩ : ∃ j, k.toNat = j + 1 :=
      Nat.exists_eq_succ_of_ne_zero fun zero => some (BitVec.eq_of_toNat_eq zero)
    rw [hj, Nat.add_sub_cancel] at found
    obtain ⟨inside, -⟩ := List.getElem?_eq_some_iff.mp found
    refine ⟨by omega, ?_⟩
    rw [hj, sessionBlock, found, setWidth_nibble]

/-- The drive and its TOC are asked for, then the session number is tested against the count. -/
theorem spiReqSes_has (p : Params) {s : State} {toc : Toc} (ready : s.ready) (has : s.hasToc toc) :
    ∃ answers, spiReqSes p s =
      if toc.sessions.length < p.b2.toNat then .ok (failField (tocAnswered answers toc s))
      else pioRespond (window (sessionBlock toc p.b2.toNat s.unitStatus) 0 p.b4.toNat) .pioEnd (tocAnswered answers toc s) := by
  obtain ⟨answers, e⟩ := needToc_has ready has
  have unit : (tocAnswered answers toc s).unitStatus = s.unitStatus := (sectNumWith_fields s.unitStatus toc s).1
  refine ⟨answers, ?_⟩
  rw [spiReqSes, needReady_ready _ _ ready, e, unit]
  rfl

/-- Settles O42: a session that the disc has is sent, any other rejected. -/
theorem reqSesReportsTheSession : Obligations.ReqSesReportsTheSession := by
  intro p s toc a ready has
  obtain ⟨answers, run⟩ := spiReqSes_has p (s := dispatched 0x15 p s) ready has
  refine ⟨fun number fad named => ?reports, fun beyond => ?rejects⟩
  case reports =>
    obtain ⟨within, block⟩ := sessionBlock_eq s.unitStatus named
    rw [if_neg (Nat.not_lt.mpr within),
      show sessionBlock toc p.b2.toNat (dispatched 0x15 p s).unitStatus = _ from block] at run
    exact runPacket_answers a (window_fits _ _ _) run
  case rejects =>
    rw [if_pos beyond] at run
    refine ⟨_, runPacket_next 0x15 spiReqSes p s _ a run, ?_, rfl, rfl⟩
    exact commandFails_packet _ _ .ili _ s _ rfl rfl rfl rfl rfl

end Sys2Proof.Machine
end

section
/-! The positioning packets with valid fields, settled: CD_PLAY, CD_SEEK and CD_SCAN. -/

namespace Sys2Proof.Machine

open Sys2Proof

/-! ## The positions (R131, R136 to R138) -/

theorem ptype_beq_two (p : Params) : (p.ptype == 2) = (paramType p == 2) := by
  rw [← ptype_toNat, Bool.eq_iff_iff, beq_iff_eq, beq_iff_eq, ← BitVec.toNat_inj]
  rfl

theorem position_toNat (p : Params) : p.position.toNat = targetAddress p := by
  rw [Params.position, packetFad_toNat, ptype_beq_two, targetAddress]

theorem endPosition_toNat (p : Params) : p.endPosition.toNat = endAddress p := by
  rw [Params.endPosition, packetFad_toNat, ptype_beq_two, endAddress]

theorem inRange_position (c : Cdda) (p : Params) :
    c.inRange p.position = true ↔ c.start.toNat ≤ targetAddress p ∧ targetAddress p ≤ c.last.toNat := by
  rw [Cdda.inRange_iff, position_toNat]

/-- A positioning packet asks for the disc and then goes by its parameter type (R268, R270, R274). -/
theorem spiCdPlay_positions {p : Params} {s : State} (ready : s.ready) (type : paramType p = 1 ∨ paramType p = 2) :
    spiCdPlay p s = playFrom p (askedPresent s) := by
  rw [← ptype_toNat] at type
  rw [spiCdPlay, needReady_ready _ s ready]
  rcases type with h | h <;> simp only [h]

theorem spiCdSeek_positions {p : Params} {s : State} (ready : s.ready) (type : paramType p = 1 ∨ paramType p = 2) :
    spiCdSeek p s = seekTo p (askedPresent s) := by
  rw [← ptype_toNat] at type
  rw [spiCdSeek, needReady_ready _ s ready]
  rcases type with h | h <;> simp only [h]

theorem spiCdSeek_pauses {p : Params} {s : State} (ready : s.ready) (type : paramType p = 4) :
    spiCdSeek p s = pause (askedPresent s) := by
  rw [← ptype_toNat] at type
  rw [spiCdSeek, needReady_ready _ s ready]
  simp only [type]

theorem spiCdScan_positions {p : Params} {s : State} (ready : s.ready) (type : paramType p = 1 ∨ paramType p = 2) :
    spiCdScan p s = scanFrom p (askedPresent s) := by
  rw [← ptype_toNat] at type
  rw [spiCdScan, needReady_ready _ s ready]
  rcases type with h | h <;> simp only [h]

/-! ## CD_PLAY (R268) -/

theorem playRangeOk_iff {toc : Toc} {first : Track} {rest : List Track} (tracks : toc.tracks = first :: rest) (s e : Fad) :
    playRangeOk toc s e = true ↔
      first.fad.toNat ≤ s.toNat ∧ s.toNat ≤ e.toNat ∧ e.toNat ≤ toc.leadout.fad.toNat := by
  simp [playRangeOk, tracks, and_assoc]

/-- A playback of the packet's range from its start (R268). -/
abbrev rangePlayed (p : Params) (s : State) : State :=
  ({ s with cdda := ⟨.playing, p.repeats, p.position, p.endPosition, p.position, .none⟩ }.putStatus dscBit true).putUnit
    unitPlay

/-- Settles O46: both questions are answered and the range test passes. -/
theorem cdPlayStartsTheRange : Obligations.CdPlayStartsTheRange := by
  intro p s toc first rest a ready has type tracks low order high
  rw [← position_toNat] at low order
  rw [← endPosition_toNat] at order high
  obtain ⟨answers, asked⟩ := needToc_has (s := dispatched 0x20 p s) ready has
  have run : spiCdPlay p (dispatched 0x20 p s) =
      .ok (spiDone (rangePlayed p (tocAnswered answers toc (dispatched 0x20 p s)))) := by
    rw [spiCdPlay_positions (s := dispatched 0x20 p s) ready type, playFrom, asked,
      if_pos ((playRangeOk_iff tracks _ _).mpr ⟨low, order, high⟩)]
  have sector : (sectNumWith s.unitStatus toc s).extractLsb' 4 4 ++ unitPlay = sectNumWith 3 toc s := by
    rw [(sectNumWith_fields s.unitStatus toc s).2]
    rfl
  refine ⟨_, runPacket_next 0x20 spiCdPlay p s _ a run, ?_, rfl, rfl, ?_, position_toNat p, position_toNat p,
    endPosition_toNat p, rfl, ?_⟩
  · exact commandEnds_positioned _ s _ rfl rfl rfl
  · exact BitVec.extractLsb'_toNat _ _ _
  · rw [← sector]
    rfl

/-! ## CD_SCAN (R274) -/

/-- The scan flag of the packet's direction bit (R138). -/
theorem scan_direction (p : Params) :
    (if p.reverse then Scan.reverse else .forward) = if p.b1.toNat / 8 % 2 = 0 then .forward else .reverse := by
  have bit : ∀ b : Byte, b.getLsbD 3 = !decide (b.toNat / 8 % 2 = 0) := by decide
  rw [Params.reverse, bit]
  by_cases forward : p.b1.toNat / 8 % 2 = 0 <;> simp [forward]

/-- A playback with a scan flag from the target (R274). -/
abbrev scanned (target : Fad) (direction : Scan) (s : State) : State :=
  ({ s with cdda := { s.cdda with current := target, scan := direction, status := .playing } }.putStatus dscBit true).putUnit
    unitScan

/-- A scan whose target is inside the range is begun (R274). -/
theorem scanFrom_begins {p : Params} {s : State} (low : s.cdda.start.toNat ≤ targetAddress p)
    (high : targetAddress p ≤ s.cdda.last.toNat) :
    scanFrom p s = .ok (spiDone (scanned p.position (if p.b1.toNat / 8 % 2 = 0 then .forward else .reverse) s)) := by
  rw [scanFrom, if_pos ((inRange_position s.cdda p).mpr ⟨low, high⟩), scan_direction]

/-- Settles O49: the range test passes from any CDDA status. -/
theorem scanPlaysFromTheTarget : Obligations.ScanPlaysFromTheTarget := by
  intro p s a ready type low high
  have run := (spiCdScan_positions (s := dispatched 0x22 p s) ready type).trans (scanFrom_begins low high)
  refine ⟨_, runPacket_next 0x22 spiCdScan p s _ a run, ?_, rfl, position_toNat p, rfl, ?_, ?_, rfl⟩
  · exact commandEnds_positioned _ s _ rfl rfl rfl
  · exact putUnit_unitStatus s _
  · exact putUnit_discFormat s _

/-! ## CD_SEEK (R260, R270, R272) -/

theorem unitFromCdda_playing {u : State} (status : u.cdda.status = .playing) (scan : u.cdda.scan = .none) :
    (unitFromCdda u).unitStatus = unitPlay := by
  simp only [unitFromCdda, status, scan, putUnit_unitStatus]

theorem unitFromCdda_scanning {u : State} (status : u.cdda.status = .playing) (scan : u.cdda.scan ≠ .none) :
    (unitFromCdda u).unitStatus = unitScan := by
  cases h : u.cdda.scan with
  | none => exact absurd h scan
  | forward => simp only [unitFromCdda, status, h, putUnit_unitStatus]
  | reverse => simp only [unitFromCdda, status, h, putUnit_unitStatus]

theorem unitFromCdda_paused {u : State} (status : u.cdda.status = .paused) : (unitFromCdda u).unitStatus = unitPause := by
  simp only [unitFromCdda, status, putUnit_unitStatus]

theorem unitFromCdda_terminated {u : State} (status : u.cdda.status = .terminated) :
    (unitFromCdda u).unitStatus = u.unitStatus := by
  simp only [unitFromCdda, status]

/-- The unit status follows the CDDA state and nothing else moves (R260). -/
theorem unitFromCdda_frame (u : State) :
    unitFromCdda u = { u with sectNum := u.discFormat ++ (unitFromCdda u).unitStatus } := by
  rcases unitFromCdda_cases u with e | ⟨unit, -, e⟩
  · rw [e, unitStatus_discFormat_whole]
  · rw [e, putUnit_unitStatus]
    rfl

/-- A seek whose target a playback allows moves the frame (R270). -/
theorem seekTo_moves {p : Params} {s : State}
    (inside : s.cdda.status = .playing → s.cdda.start.toNat ≤ targetAddress p ∧ targetAddress p ≤ s.cdda.last.toNat) :
    seekTo p s = .ok (spiDone (unitFromCdda (sought p.position s))) := by
  have allowed : ¬ (s.cdda.status = .playing ∧ s.cdda.inRange p.position = false) := by
    rintro ⟨playing, outside⟩
    exact absurd ((inRange_position s.cdda p).mpr (inside playing)) (Bool.eq_false_iff.mp outside)
  exact if_neg allowed

/-- A playback paused where it is (R272). -/
abbrev playPaused (s : State) : State :=
  { s with cdda := { s.cdda with status := .paused, scan := .none } }.putUnit unitPause

/-- A pause stops a playback and nothing else (R272). -/
theorem pause_cases (s : State) :
    (s.cdda.status = .playing ∧ pause s = .ok (spiDone (playPaused s))) ∨
    (s.cdda.status ≠ .playing ∧ pause s = .ok (spiDone s)) := by
  by_cases playing : s.cdda.status = .playing
  · exact .inl ⟨playing, if_pos playing⟩
  · exact .inr ⟨playing, if_neg playing⟩

/-- The status of the CDDA after a seek (R270). -/
theorem sought_status {target : Fad} {s : State} {status : CddaStatus} (h : s.cdda.status = status) (some : status ≠ .noInfo) :
    (sought target s).cdda.status = status := by
  subst h
  exact if_neg some

/-- Settles O48: the unit status is the one of the CDDA state that the seek or the pause leaves. -/
theorem seekMovesTheFrame : Obligations.SeekMovesTheFrame := by
  intro p s a ready
  refine ⟨fun type inside => ?seeks, fun type => ?pauses⟩
  case seeks =>
    have run := (spiCdSeek_positions (s := dispatched 0x21 p s) ready type).trans (seekTo_moves inside)
    rw [unitFromCdda_frame] at run
    have unit (v : BitVec 4) : (s.discFormat ++ v).extractLsb' 0 4 = v := BitVec.extractLsb'_append_eq_right
    refine ⟨_, runPacket_next 0x21 spiCdSeek p s _ a run, ?_, rfl, position_toNat p, rfl, rfl,
      BitVec.extractLsb'_append_eq_left, ?playing, ?scanning, ?paused, ?terminated, rfl⟩
    · exact commandEnds_positioned _ s _ rfl rfl rfl
    case playing =>
      rintro ⟨status, scan⟩
      exact (unit _).trans (unitFromCdda_playing (sought_status status nofun) scan)
    case scanning =>
      rintro ⟨status, scan⟩
      exact (unit _).trans (unitFromCdda_scanning (sought_status status nofun) scan)
    case paused =>
      rintro (status | status)
      · exact (unit _).trans (unitFromCdda_paused (sought_status status nofun))
      · exact (unit _).trans (unitFromCdda_paused (if_pos status))
    case terminated =>
      intro status
      exact (unit _).trans (unitFromCdda_terminated (sought_status status nofun))
  case pauses =>
    have run := spiCdSeek_pauses (s := dispatched 0x21 p s) ready type
    rcases pause_cases (askedPresent (dispatched 0x21 p s)) with ⟨playing, e⟩ | ⟨still, e⟩
    · refine ⟨_, runPacket_next 0x21 spiCdSeek p s _ a (run.trans e), ?_, rfl, putUnit_discFormat s _,
        fun _ => ⟨rfl, putUnit_unitStatus s _⟩, fun still => absurd playing still, rfl⟩
      exact commandEnds_packet _ s _ rfl rfl rfl
    · refine ⟨_, runPacket_next 0x21 spiCdSeek p s _ a (run.trans e), ?_, rfl, rfl,
        fun playing => absurd playing still, fun _ => ⟨rfl, rfl⟩, rfl⟩
      exact commandEnds_packet _ s _ rfl rfl rfl

end Sys2Proof.Machine
end

section
/-! Where an operation can leave the controller state (R190): the rows of each packet, of the DATA port and of the commands; and
the transition table, settled. -/

namespace Sys2Proof.Machine

open Sys2Proof

/-- Where the procedure is applied it ends in a state of the row. -/
def EndsIn (row : GdState → Prop) (r : Except Halt State) : Prop := ∀ t, r = .ok t → row t.state

section Rows

variable {row : GdState → Prop} {s t u : State}

theorem endsIn_ok (h : row u.state) : EndsIn row (.ok u) := by
  rintro t ⟨⟩
  exact h

theorem endsIn_misused (r : Misuse) : EndsIn row (misused r u) := by
  intro t e
  cases e

/-! ## The read engine (R290 to R295) -/

/-- A failed refill ends the read (R290). -/
theorem readFail_idle (u : State) : (readFail u).state = .waitcmd := by
  obtain ⟨e, v, -, -, eq⟩ := readFail_cases u
  rw [eq]
  rfl

/-- The engine's PIO path offers a chunk or ends the read (R291). -/
theorem enterReadsectorPio_state (e : enterReadsectorPio u = .ok t) : t.state = .waitcmd ∨ t.state = .pioSendData := by
  rcases enterReadsectorPio_cases e with ⟨-, -, rfl⟩ | ⟨-, size, bytes, -, rfl⟩ | rfl | ⟨-, rfl⟩
  · exact .inl rfl
  · exact .inr rfl
  · exact .inl (readFail_idle _)
  · exact .inr rfl

/-- The DMA service waits for the next pull or ends the read (R295). -/
theorem dmaService_state (e : dmaService u = .ok t) : t.state = u.state ∨ t.state = .waitcmd := by
  rcases dmaService_cases e with ⟨-, rfl⟩ | ⟨-, size, bytes, -, rfl⟩ | rfl | ⟨-, rfl⟩
  · exact .inr rfl
  · exact .inl rfl
  · exact .inr (readFail_idle _)
  · exact .inl rfl

/-! ## The shared parts of the handlers -/

theorem endsIn_pioRespond {bytes : List Byte} (idle : row .waitcmd) (sends : row .pioSendData) :
    EndsIn row (pioRespond bytes .pioEnd u) := by
  rcases pioRespond_cases bytes .pioEnd u with ⟨-, e⟩ | ⟨-, -, e⟩ | ⟨-, e⟩
  · rw [e]
    exact endsIn_ok idle
  · rw [e]
    exact endsIn_ok sends
  · rw [e]
    exact endsIn_misused _

theorem discReady_dmaEnable (u : State) : (discReady u).2.dmaEnable = u.dmaEnable := by
  rcases discReady_cases u with ⟨-, e⟩ | ⟨-, e⟩
  · rw [e]
  · rw [e]
    rfl

theorem endsIn_needReady {k : Act} (idle : row .waitcmd) (hk : ∀ v, v.dmaEnable = u.dmaEnable → EndsIn row (k v)) :
    EndsIn row (needReady k u) := by
  rcases needReady_cases k u with ⟨-, e⟩ | ⟨-, e⟩
  · rw [e]
    exact hk _ (discReady_dmaEnable u)
  · rw [e]
    exact endsIn_ok idle

theorem endsIn_needToc {k : Toc → Act} (idle : row .waitcmd) (hk : ∀ toc v, EndsIn row (k toc v)) :
    EndsIn row (needToc k u) := by
  rcases needToc_cases k u with ⟨toc, -, e⟩ | ⟨-, e⟩
  · rw [e]
    exact hk toc _
  · rw [e]
    exact endsIn_ok idle

/-! ## The packets (R220) -/

theorem spiSetMode_endsIn (p : Params) (idle : row .waitcmd) (receives : row .pioGetData) : EndsIn row (spiSetMode p u) := by
  intro t e
  rw [spiSetMode_eq] at e
  split at e
  · rw [enterProcessSetMode_idle e]
    exact idle
  · cases e
    exact receives

theorem spiReqSes_endsIn (p : Params) (idle : row .waitcmd) (sends : row .pioSendData) : EndsIn row (spiReqSes p u) := by
  refine endsIn_needReady idle fun v _ => endsIn_needToc idle fun toc w => ?_
  split
  · exact endsIn_ok idle
  · exact endsIn_pioRespond idle sends

theorem spiGetScd_endsIn (p : Params) (idle : row .waitcmd) (sends : row .pioSendData) : EndsIn row (spiGetScd p u) := by
  unfold spiGetScd
  split
  · exact endsIn_pioRespond idle sends
  · exact endsIn_ok idle

theorem playFrom_endsIn (p : Params) (idle : row .waitcmd) : EndsIn row (playFrom p u) := by
  refine endsIn_needToc idle fun toc v => ?_
  split <;> exact endsIn_ok idle

theorem resume_endsIn (idle : row .waitcmd) : EndsIn row (resume u) := by
  unfold resume
  split
  · split <;> exact endsIn_ok idle
  · exact endsIn_ok idle

theorem spiCdPlay_endsIn (p : Params) (idle : row .waitcmd) : EndsIn row (spiCdPlay p u) := by
  refine endsIn_needReady idle fun v _ => ?_
  split
  · exact playFrom_endsIn p idle
  · exact playFrom_endsIn p idle
  · exact resume_endsIn idle
  · exact endsIn_ok idle

theorem seekTo_endsIn (p : Params) (idle : row .waitcmd) : EndsIn row (seekTo p u) := by
  unfold seekTo
  split <;> exact endsIn_ok idle

theorem pause_endsIn (idle : row .waitcmd) : EndsIn row (pause u) := by
  unfold pause
  split <;> exact endsIn_ok idle

theorem spiCdSeek_endsIn (p : Params) (idle : row .waitcmd) : EndsIn row (spiCdSeek p u) := by
  refine endsIn_needReady idle fun v _ => ?_
  split
  · exact seekTo_endsIn p idle
  · exact seekTo_endsIn p idle
  · exact pause_endsIn idle
  · exact endsIn_ok idle

theorem scanFrom_endsIn (p : Params) (idle : row .waitcmd) : EndsIn row (scanFrom p u) := by
  unfold scanFrom
  split <;> exact endsIn_ok idle

theorem spiCdScan_endsIn (p : Params) (idle : row .waitcmd) : EndsIn row (spiCdScan p u) := by
  refine endsIn_needReady idle fun v _ => ?_
  split
  · exact scanFrom_endsIn p idle
  · exact scanFrom_endsIn p idle
  · exact endsIn_ok idle

/-- A sector read takes the path the DMA bit selects (R286). -/
theorem readStart_endsIn (p : Params) (count : Nat) (idle : row .waitcmd) (pio : u.dmaEnable = false → row .pioSendData)
    (dma : u.dmaEnable = true → row .readsectorDma) : EndsIn row (readStart p count u) := by
  unfold readStart
  split
  · intro t e
    cases e
  · refine endsIn_needReady idle fun v same => ?_
    rw [← same] at pio dma
    split
    · exact endsIn_misused _
    · dsimp only
      split
      · rename_i selected
        intro t e
        rcases dmaService_state e with h | h
        · rw [h]
          exact dma selected
        · rw [h]
          exact idle
      · rename_i unselected
        intro t e
        rcases enterReadsectorPio_state e with h | h
        · rw [h]
          exact idle
        · rw [h]
          exact pio (Bool.eq_false_iff.mpr unselected)

/-- Every packet can end in `gds_waitcmd` (R190). -/
theorem packetRow_idle (opcode : Byte) (dma : Bool) : packetRow opcode dma .waitcmd := by
  unfold packetRow
  cases spiOp opcode <;> simp

/-- A packet that is applied ends where its rows say (R190). -/
theorem spiHandler_endsIn (opcode : Byte) (p : Params) (s : State) :
    EndsIn (packetRow opcode s.dmaEnable) (spiHandler opcode p s) := by
  have idle := packetRow_idle opcode s.dmaEnable
  unfold spiHandler
  cases op : spiOp opcode with
  | testUnit => exact endsIn_needReady idle fun _ _ => endsIn_ok idle
  | reqStat | reqMode | reqError => exact endsIn_pioRespond idle (by simp [packetRow, op])
  | setMode => exact spiSetMode_endsIn p idle (by simp [packetRow, op])
  | getToc =>
    exact endsIn_needReady idle fun _ _ => endsIn_needToc idle fun _ _ => endsIn_pioRespond idle (by simp [packetRow, op])
  | reqSes => exact spiReqSes_endsIn p idle (by simp [packetRow, op])
  | cdOpen => exact endsIn_ok idle
  | cdPlay => exact spiCdPlay_endsIn p idle
  | cdSeek => exact spiCdSeek_endsIn p idle
  | cdScan => exact spiCdScan_endsIn p idle
  | cdRead | cdRead2 =>
    exact readStart_endsIn p _ idle (fun pio => by simp [packetRow, op, pio]) (fun dma => by simp [packetRow, op, dma])
  | getScd => exact spiGetScd_endsIn p idle (by simp [packetRow, op])
  | other => exact endsIn_ok idle

/-! ## The DATA port (R164 to R168) -/

theorem Unapplied.state_eq (h : Unapplied s t) : t.state = s.state := by
  rw [h]

theorem recordHalt_state (f : Halt) (s : State) : (recordHalt f s).state = s.state :=
  (unapplied_recordHalt f s).state_eq

/-- A DATA read goes on, offers the next chunk or ends the command. -/
theorem hostReadData_state {n : Nat} (inv : Inv s) (e : hostReadData n s = .ok t) :
    t.state = s.state ∨ (s.state = .pioSendData ∧ t.state = .waitcmd) := by
  obtain ⟨phase, -, -, e⟩ := hostReadData_ok e
  rcases endPhaseIfDrained_cases (wordRead s) with ⟨-, e'⟩ | ⟨-, e'⟩
  · replace e := e'.symm.trans e
    have next : (wordRead s).pio.nextState = .pioEnd ∨ (wordRead s).pio.nextState = .readsectorPio :=
      inv.continuations.1 phase
    rcases next with next | next
    · rw [next] at e
      cases e
      exact .inr ⟨phase, rfl⟩
    · rw [next] at e
      rcases enterReadsectorPio_state e with h | h
      · exact .inr ⟨phase, h⟩
      · exact .inl (h.trans phase.symm)
  · cases e'.symm.trans e
    exact .inl rfl

/-- A word of a SET_MODE block leaves the phase open or ends the command. -/
theorem wordStored_state {v : Half} (inv : Inv s) (phase : s.state = .pioGetData)
    (e : endPhaseIfDrained (wordStored v s) = .ok t) : t.state = .pioGetData ∨ t.state = .waitcmd := by
  rcases endPhaseIfDrained_cases (wordStored v s) with ⟨-, e'⟩ | ⟨-, e'⟩
  · have next : (wordStored v s).pio.nextState = .processSetMode := inv.continuations.2 phase
    rw [next] at e'
    exact .inr (enterProcessSetMode_idle (e'.symm.trans e))
  · cases e'.symm.trans e
    exact .inl phase

/-- The twelfth byte of a packet has it end where the rows of its opcode say. -/
theorem bytesCollected_row {n : Nat} {v : Half} (begun : s.packet.index ≠ 0)
    (e : enterProcpacket (bytesCollected n v s) = .ok t) : packetRow (s.packet.b.getD 0 0) s.dmaEnable t.state := by
  rw [← bytesCollected_opcode n v begun]
  exact spiHandler_endsIn _ _ (startPacket (bytesCollected n v s)) t e

theorem hostWriteData_row {n : Nat} {v : Half} (inv : Inv s) (e : hostWriteData n v s = .ok t) :
    t.state = s.state ∨ transitionRow (.wData n v) s t.state := by
  rcases hostWriteData_ok e with ⟨-, -, -, -, rfl⟩ | ⟨waits, -, small, twelfth, run⟩ | ⟨phase, -, run⟩
  · exact .inl rfl
  · exact .inr (.inl ⟨waits, twelfth, bytesCollected_row (by omega) run⟩)
  · rcases wordStored_state inv phase run with h | h
    · exact .inl (h.trans phase.symm)
    · exact .inr (.inr ⟨phase, h⟩)

/-! ## A packet taken as its writes (log entry 12) -/

/-- Outside the two phases that take DATA writes the words of a packet leave the state. -/
theorem writeWords_elsewhere (ws : List Half) (waits : s.state ≠ .waitpacket) (receives : s.state ≠ .pioGetData) :
    (writeWords ws s).state = s.state := by
  cases ws with
  | nil => rfl
  | cons v rest =>
    unfold writeWords
    split
    next u hu =>
      rcases hostWriteData_ok hu with ⟨phase, -⟩ | ⟨phase, -⟩ | ⟨phase, -⟩
      · exact absurd phase waits
      · exact absurd phase waits
      · exact absurd phase receives
    next f _ => exact recordHalt_state f s

/-- The words of a packet drain the block of a SET_MODE or leave its phase open. -/
theorem writeWords_receiving (ws : List Half) (inv : Inv s) (phase : s.state = .pioGetData) :
    (writeWords ws s).state = .pioGetData ∨ (writeWords ws s).state = .waitcmd := by
  induction ws generalizing s with
  | nil => exact .inl phase
  | cons v rest ih =>
    unfold writeWords
    split
    next u hu =>
      rcases hostWriteData_ok hu with ⟨waits, -⟩ | ⟨waits, -⟩ | ⟨-, -, run⟩
      · exact absurd (phase.symm.trans waits) nofun
      · exact absurd (phase.symm.trans waits) nofun
      · rcases wordStored_state inv phase run with h | h
        · exact ih (inv_hostWriteData inv hu) h
        · rw [writeWords_elsewhere rest (by simp [h]) (by simp [h])]
          exact .inr h
    next f _ => exact .inl ((recordHalt_state f s).trans phase)

/-- The words of a packet end the packet begun in the accumulator or leave it awaited; those after its last byte can only drain
the block it asks for. -/
theorem writeWords_collecting (ws : List Half) (inv : Inv s) (waits : s.state = .waitpacket) (begun : s.packet.index ≠ 0) :
    (writeWords ws s).state = .waitpacket ∨ packetRow (s.packet.b.getD 0 0) s.dmaEnable (writeWords ws s).state := by
  induction ws generalizing s with
  | nil => exact .inl waits
  | cons v rest ih =>
    unfold writeWords
    split
    next u hu =>
      have inv' := inv_hostWriteData inv hu
      rcases hostWriteData_ok hu with ⟨-, -, -, -, rfl⟩ | ⟨-, -, -, -, run⟩ | ⟨phase, -⟩
      · rw [← bytesCollected_opcode 2 v begun]
        exact ih inv' waits (show s.packet.index + 2 ≠ 0 by omega)
      · have ended := bytesCollected_row begun run
        by_cases receives : u.state = .pioGetData
        · rcases writeWords_receiving rest inv' receives with h | h
          · rw [h, ← receives]
            exact .inr ended
          · rw [h]
            exact .inr (packetRow_idle _ _)
        · rw [writeWords_elsewhere rest (answered_leaves (spiHandler_leads _ _ .start run)) receives]
          exact .inr ended
      · exact absurd (waits.symm.trans phase) nofun
    next f _ => exact .inl ((recordHalt_state f s).trans waits)

/-- A packet operation follows the rows of its opcode where it is awaited, and those of its writes elsewhere. -/
theorem runPacket_row {code opcode : Byte} {p : Params} (inv : Inv s) (e : runPacket code (spiHandler opcode) p s = .next t) :
    t.state = s.state ∨ packetOperationRow opcode s t.state := by
  replace e := next_of_whileLive e
  split at e
  · rename_i awaited
    rcases ok_or_unapplied_of_applied e with h | run
    · exact .inl h.state_eq
    · exact .inr (.inl ⟨awaited.1, awaited.2, spiHandler_endsIn _ p (dispatched code p s) t run⟩)
  · rename_i elsewhere
    cases e
    by_cases waits : s.state = .waitpacket
    · have begun : s.packet.index ≠ 0 := fun empty => elsewhere ⟨waits, empty⟩
      rcases writeWords_collecting (packetWords code p) inv waits begun with h | h
      · exact .inl (h.trans waits.symm)
      · exact .inr (.inr (.inl ⟨waits, begun, h⟩))
    · by_cases receives : s.state = .pioGetData
      · rcases writeWords_receiving (packetWords code p) inv receives with h | h
        · exact .inl (h.trans receives.symm)
        · exact .inr (.inr (.inr ⟨receives, h⟩))
      · exact .inl (writeWords_elsewhere _ waits receives)

/-! ## The commands (R169, R200) -/

/-- The rows of R190 that a command write of this code takes: SOFT_RESET's from every state, and from `gds_waitcmd` those of
SPI_PACKET and of the two identifications. -/
def commandRow (code : Byte) (s : State) (b : GdState) : Prop :=
  (code = 0x08#8 ∧ b = .waitcmd) ∨ (code = 0xA0#8 ∧ s.state = .waitcmd ∧ b = .waitpacket) ∨
  ((code = 0xA1#8 ∨ code = 0xEC#8) ∧ s.state = .waitcmd ∧ b = .pioSendData)

/-- The codes of the commands that can change the state (R120). -/
theorem ataOp_movers (code : Byte) :
    (ataOp code = .spiPacket → code = 0xA0) ∧
    (ataOp code = .identifyDevice ∨ ataOp code = .identify → code = 0xA1 ∨ code = 0xEC) := by
  revert code
  decide

theorem ataSetFeatures_idle (e : ataSetFeatures u = .ok t) : t.state = .waitcmd := by
  unfold ataSetFeatures at e
  split at e
  · cases e
    rfl
  · cases e
    rfl

theorem ataHandler_row {code : Byte} (taken : code = 0x08 ∨ u.state = .waitcmd) (e : ataHandler code u = .ok t) :
    t.state = u.state ∨ commandRow code u t.state := by
  obtain ⟨inEveryState, softCode, -⟩ := ataOp_resets code
  obtain ⟨packetCode, identifyCode⟩ := ataOp_movers code
  have idle (h : ataOp code ≠ .softReset) : u.state = .waitcmd := taken.resolve_left fun hc => h (inEveryState hc)
  have identifies (h : ataIdentify u = .ok t) : t.state = .waitcmd ∨ t.state = .pioSendData :=
    endsIn_pioRespond (row := fun b => b = .waitcmd ∨ b = .pioSendData) (.inl rfl) (.inr rfl) t h
  unfold ataHandler at e
  cases op : ataOp code with
  | softReset =>
    rw [op] at e
    cases e
    exact .inr (.inl ⟨softCode op, rfl⟩)
  | nop | execDiag | other =>
    rw [op] at e
    cases e
    exact .inl (idle (by simp [op])).symm
  | spiPacket =>
    rw [op] at e
    cases e
    exact .inr (.inr (.inl ⟨packetCode op, idle (by simp [op]), rfl⟩))
  | identifyDevice | identify =>
    rw [op] at e
    rcases identifies e with h | h
    · exact .inl (h.trans (idle (by simp [op])).symm)
    · exact .inr (.inr (.inr ⟨identifyCode (by simp [op]), idle (by simp [op]), h⟩))
  | setFeatures =>
    rw [op] at e
    exact .inl ((ataSetFeatures_idle e).trans (idle (by simp [op])).symm)

theorem commandWrite_row {code : Byte} (e : applied s (commandWrite code (ataHandler code) s) = .next t) :
    t.state = s.state ∨ commandRow code s t.state := by
  rcases ok_or_unapplied_of_applied e with h | e
  · exact .inl h.state_eq
  · rcases commandWrite_cases code (ataHandler code) s with ⟨-, -, e'⟩ | ⟨taken, e'⟩
    · cases e'.symm.trans e
    · exact ataHandler_row (u := acceptCommand s) taken (e'.symm.trans e)

theorem runCommand_row {code : Byte} (e : runCommand code (ataHandler code) s = .next t) :
    t.state = s.state ∨ commandRow code s t.state :=
  commandWrite_row (next_of_whileLive e)

/-- A command whose code has no row leaves the state. -/
theorem runCommand_stays {code : Byte} (rowless : code ∉ [0x08#8, 0xA0#8, 0xA1#8, 0xEC#8])
    (e : runCommand code (ataHandler code) s = .next t) : t.state = s.state := by
  refine (runCommand_row e).resolve_right ?_
  simp only [List.mem_cons, List.not_mem_nil, or_false, not_or] at rowless
  simp [commandRow, rowless]

/-! ## The register port and the events -/

theorem readRegister_state {n : Nat} {v : Byte} (kept : u.state = s.state) (e : readRegister n v s u = .next t) :
    t.state = s.state := by
  replace e := next_of_whileLive e
  split at e
  · cases e
    exact kept
  · cases e
    exact (unapplied_unfixedRead _ n s).state_eq

theorem writeRegister_state {n : Nat} (kept : u.state = s.state) (e : writeRegister n s u = .next t) : t.state = s.state := by
  rcases ok_or_unapplied_of_applied (next_of_whileLive e) with h | e
  · exact h.state_eq
  · split at e
    · cases e
      exact kept
    · cases e

theorem execRData_row {n : Nat} (inv : Inv s) (e : execRData n s = .next t) :
    t.state = s.state ∨ transitionRow (.rData n) s t.state := by
  replace e := next_of_whileLive e
  split at e
  next v hv =>
    cases e
    exact hostReadData_state inv hv
  next f _ =>
    cases e
    exact .inl (unapplied_unfixedRead f n s).state_eq

theorem execWCommand_row {n : Nat} {v : Half} (e : execWCommand n v s = .next t) :
    t.state = s.state ∨ transitionRow (.wCommand n v) s t.state := by
  replace e := next_of_whileLive e
  split at e
  · exact commandWrite_row e
  · cases e
    exact .inl (recordHalt_state _ s)

theorem execDmaPull_row {len : Nat} (e : execDmaPull len s = .next t) :
    t.state = s.state ∨ transitionRow (.dmaPull len) s t.state := by
  replace e := next_of_whileLive e
  split at e
  next v hv =>
    cases e
    obtain ⟨phase, -, run⟩ := dmaPullBytes_ok hv
    exact (dmaService_state run).imp_right fun h => ⟨phase, h⟩
  next f _ =>
    cases e
    exact .inl (unapplied_unfixedPull f len s).state_eq

theorem cddaStep_state (s : State) : (cddaStep s).state = s.state := by
  rw [cddaStep_frame]

theorem closeTray_state (s : State) : (closeTray s).state = s.state := by
  unfold closeTray
  split
  · rw [unitRefresh_frame]
    rfl
  · rfl

theorem hardResetState_state (s : State) : (hardResetState s).state = .waitcmd := by
  rw [hardResetState_eq, unitRefresh_frame]

end Rows

/-- Settles O7: the operations by their constructors, each by the rows of the port or the procedure it runs. -/
theorem stateChangesFollowTheTable : Obligations.StateChangesFollowTheTable := by
  intro i s t unknown inv e
  cases i with
  | rData n => exact execRData_row inv e
  | rError n | rIntreason n | rSectnum n | rBclow n | rBchigh n | rDrivesel n | rStatus n =>
    exact .inl (readRegister_state (by rfl) e)
  | wData n v =>
    rcases ok_or_unapplied_of_applied (next_of_whileLive e) with h | run
    · exact .inl h.state_eq
    · exact hostWriteData_row inv run
  | wFeatures n v | wSectcount n v | wSectnum n v | wBclow n v | wBchigh n v | wDrivesel n v =>
    exact .inl (writeRegister_state (by rfl) e)
  | wCommand n v => exact execWCommand_row e
  | nop => exact .inl (runCommand_stays (code := 0x00) (by decide) e)
  | softReset => exact (runCommand_row (code := 0x08) e).imp_right (by simp [commandRow, transitionRow])
  | execDiag => exact .inl (runCommand_stays (code := 0x90) (by decide) e)
  | spiPacket => exact (runCommand_row (code := 0xA0) e).imp_right (by simp [commandRow, transitionRow])
  | identifyDevice => exact (runCommand_row (code := 0xA1) e).imp_right (by simp [commandRow, transitionRow])
  | identify => exact (runCommand_row (code := 0xEC) e).imp_right (by simp [commandRow, transitionRow])
  | setFeatures => exact .inl (runCommand_stays (code := 0xEF) (by decide) e)
  | ataUnknown code =>
    have outside : code ∉ ataCodes := unknown code rfl
    have rowless : code ∉ [0x08#8, 0xA0#8, 0xA1#8, 0xEC#8] := fun listed =>
      outside ((by decide : [0x08#8, 0xA0#8, 0xA1#8, 0xEC#8] ⊆ ataCodes) listed)
    refine .inl (runCommand_stays rowless ?_)
    rw [ataHandler_unknown outside]
    exact e
  | testUnit p | reqStat p | reqMode p | setMode p | reqError p | getToc p | reqSes p | cdOpen p | cdPlay p | cdSeek p | cdScan p
  | cdRead p | cdRead2 p | getScd p | spiUnrecognized code p => exact runPacket_row inv e
  | dmaAvail =>
    cases next_of_whileLive e
    exact .inl rfl
  | dmaPull len => exact execDmaPull_row e
  | cddaAdvance =>
    cases next_of_whileLive e
    exact .inl (cddaStep_state s)
  | trayClose =>
    cases next_of_whileLive e
    exact .inl (closeTray_state s)
  | hardReset =>
    cases e
    exact .inr (hardResetState_state s)

end Sys2Proof.Machine
end

section
/-! The register port, an ended run, the packet command and a response read to its end, settled. -/

namespace Sys2Proof.Machine

open Sys2Proof

/-- An operation that gives a next state is followed by the rest. -/
theorem execAll_cons {i : Instr} {s t : State} (e : exec i s = .next t) (rest : List Instr) :
    execAll (i :: rest) s = execAll rest t := by
  rw [execAll, e]

/-! ## A run that has ended (R192, R350, R351) -/

/-- Every operation but the power-on reset asks first whether the run has ended. -/
theorem exec_eq_whileLive {i : Instr} (notReset : i ≠ .hardReset) (s : State) : ∃ k, exec i s = whileLive s k := by
  cases i with
  | hardReset => exact absurd rfl notReset
  | _ => exact ⟨_, rfl⟩

/-- The power-on reset clears both records (R370). -/
theorem live_hardResetState (s : State) : (hardResetState s).live := by
  rw [hardResetState_eq, unitRefresh_frame]
  exact ⟨rfl, rfl⟩

/-- Settles O14: the records are asked for before anything else, by every operation but the power-on reset. -/
theorem afterMisuseOnlyHardReset : Obligations.AfterMisuseOnlyHardReset := by
  refine ⟨fun i s r notReset misuse => ?_, fun i s r notReset none refused => ?_, fun s => ?_⟩
  · obtain ⟨k, e⟩ := exec_eq_whileLive notReset s
    rw [e, whileLive, misuse]
  · obtain ⟨k, e⟩ := exec_eq_whileLive notReset s
    rw [e, whileLive, none, refused]
  · exact ⟨_, rfl, live_hardResetState s⟩

/-! ## The register port (R161 to R163) -/

section Registers

variable {s : State}

/-- A register read of its own size returns the value. -/
theorem readRegister_byte (live : s.live) (v : Byte) (t : State) : readRegister 1 v s t = .next (t.returning (.byte v)) :=
  whileLive_live s _ live

/-- A register write of its own size is applied. -/
theorem writeRegister_byte (live : s.live) (t : State) : writeRegister 1 s t = .next t := whileLive_live s _ live

/-- The low half of the byte count written, the high one kept. -/
abbrev lowWritten (v : Half) (s : State) : State := { s with byteCount := s.byteCount.extractLsb' 8 8 ++ v.extractLsb' 0 8 }

/-- The high half of the byte count written, the low one kept. -/
abbrev highWritten (v : Half) (s : State) : State := { s with byteCount := v.extractLsb' 0 8 ++ s.byteCount.extractLsb' 0 8 }

theorem exec_wBclow (live : s.live) (v : Half) : exec (.wBclow 1 v) s = .next (lowWritten v s) :=
  writeRegister_byte live _

theorem exec_wBchigh (live : s.live) (v : Half) : exec (.wBchigh 1 v) s = .next (highWritten v s) :=
  writeRegister_byte live _

/-- Both halves of the byte count written in turn. -/
theorem highWritten_lowWritten (high low : Half) (s : State) :
    highWritten high (lowWritten low s) = { s with byteCount := high.extractLsb' 0 8 ++ low.extractLsb' 0 8 } := by
  have kept : (lowWritten low s).byteCount.extractLsb' 0 8 = low.extractLsb' 0 8 := BitVec.extractLsb'_append_eq_right
  rw [highWritten, kept]

end Registers

/-- Settles O15: each read is a register read; the reset leaves STANDBY and DiscFormat 0 with a disc in the drive (R370). -/
theorem plainRegisterReads : Obligations.PlainRegisterReads := by
  refine ⟨fun s live => ?_, fun s present => ?_⟩
  · have read (v : Byte) := readRegister_byte live v s
    exact ⟨read _, read _, read _, read _, read _, read _⟩
  · obtain ⟨t, reset, -, -, fields⟩ := hardResetSetsEveryField s
    have live : t.live := by
      cases reset
      exact live_hardResetState s
    have sectNum : t.sectNum = 0x02 := by
      rw [fields]
      exact if_pos present
    refine ⟨t, _, reset, readRegister_byte live t.sectNum t, ?_⟩
    rw [sectNum]
    rfl

/-- Settles O16: the read returns the register and withdraws the request. -/
theorem statusReadWithdrawsTheRequest : Obligations.StatusReadWithdrawsTheRequest :=
  fun s live => readRegister_byte live s.status { s with intrq := false }

/-- Settles O17: each write is a register write; the two halves of the byte count are joined again. -/
theorem plainRegisterWrites : Obligations.PlainRegisterWrites := by
  refine ⟨fun s v live => ?_, fun s live => ?_⟩
  · have write (t : State) := writeRegister_byte live t
    refine ⟨write _, write _, write _, ⟨_, exec_wBclow live v, rfl, ?_, ?_⟩,
      ⟨_, exec_wBchigh live v, rfl, ?_, ?_⟩, write _⟩
    · exact BitVec.extractLsb'_append_eq_right
    · exact BitVec.extractLsb'_append_eq_left
    · exact BitVec.extractLsb'_append_eq_left
    · exact BitVec.extractLsb'_append_eq_right
  · have high := exec_wBchigh (s := lowWritten 0x0000 s) live 0x0008
    rw [execAll_cons (exec_wBclow live 0x0000), execAll_cons high, highWritten_lowWritten]
    rfl

/-! ## The packet command (R172, R204) -/

/-- The status path from `gds_waitcmd` to an awaited packet. -/
theorem status_packet_awaited (w : Byte) :
    putBit (putBit ((w &&& 0x3F#8) ||| 0x80#8) drqBit true) bsyBit false = (w &&& 0x3F#8) ||| 0x08#8 := by
  revert w
  decide

/-- The reason of the packet phase. -/
theorem reason_packet (w : Byte) : putBit (putBit w codBit true) ioBit false = (w &&& 0xFC#8) ||| 0x01#8 := by
  revert w
  decide

/-- What `enter(gds_waitpacket)` leaves of an accepted command (R172). -/
theorem enterWaitpacket_accepted (s : State) : enterWaitpacket (acceptCommand s) =
    { s with state := .waitpacket, status := (s.status &&& 0x3F#8) ||| 0x08#8, intReason := (s.intReason &&& 0xFC#8) ||| 0x01#8
             packet := { b := List.replicate 12 0, index := 0 } } := by
  rw [acceptCommand_eq, ← status_packet_awaited, ← reason_packet]
  rfl

/-- Settles O29: the command is accepted, and its handler enters the packet phase. -/
theorem spiPacketOpensThePacketPhase : Obligations.SpiPacketOpensThePacketPhase := by
  intro i s writes ⟨idle, live⟩
  rw [exec_writesCommand live writes, ← enterWaitpacket_accepted]
  rcases commandWrite_cases 0xA0#8 (ataHandler 0xA0#8) s with ⟨-, busy, -⟩ | ⟨-, e⟩
  · exact absurd idle busy
  · rw [e]
    rfl

/-! ## A response read to its end (R164, R382) -/

/-- The end of a command clears DRQ (R177). -/
theorem CommandEnds.drq_false {kind : IrqKind} {asked : List Query} {s t : State} (h : CommandEnds 0x40#8 kind asked s t) :
    t.drq = false := by
  have bits : ∀ w : Byte, ((w &&& 0x77#8) ||| 0x40#8).getLsbD drqBit = false := by decide
  rw [State.drq, h.status]
  exact bits s.status

/-- The response that was open in `s` is read to its end: the command has completed with its one interrupt (R164, R177). -/
structure ResponseRead (s t : State) : Prop where
  idle : t.state = .waitcmd
  drq : t.drq = false
  drained : t.pio.cursor = t.pio.size
  shown : t.obs.irqs = s.obs.irqs ++ [.complete]
  live : t.live

/-- As many DATA reads as words are left complete a response: every read before the last leaves one word fewer. -/
theorem execAll_rData_completes (k : Nat) {s : State} (live : s.live) (phase : s.state = .pioSendData)
    (left : s.pio.cursor + (k + 1) = s.pio.size) (next : s.pio.nextState = .pioEnd) :
    ∃ t, execAll (List.replicate (k + 1) (.rData 2)) s = .next t ∧ ResponseRead s t := by
  obtain ⟨takes, completes⟩ := dataReadTakesTheNextWord
  induction k generalizing s with
  | zero =>
    obtain ⟨t, run, ends, frame⟩ := completes s live phase left next
    refine ⟨t, execAll_cons run [], ends.idle, ends.drq_false, ?_, ?_, ?_⟩
    · rw [frame]
      exact left
    · rw [ends.shown]
      rfl
    · rw [frame]
      exact live
  | succ k ih =>
    have run : exec (.rData 2) s = .next (wordRead s) := takes s live phase (by omega)
    have left' : s.pio.cursor + 1 + (k + 1) = s.pio.size := by omega
    obtain ⟨t, rest, done⟩ := ih (s := wordRead s) live phase left' next
    exact ⟨t, (execAll_cons run _).trans rest, { done with }⟩

/-- Settles O19: the words left are read one after another, and then there is no phase to read in. -/
theorem responseTakesExactlyItsWords : Obligations.ResponseTakesExactlyItsWords := by
  intro s live phase left next
  obtain ⟨k, count⟩ := Nat.exists_eq_add_of_lt left
  have words : s.pio.size - s.pio.cursor = k + 1 := by omega
  rw [words]
  obtain ⟨t, run, done⟩ := execAll_rData_completes k live phase (by omega) next
  have noPhase : t.state ≠ .pioSendData := by simp [done.idle]
  obtain ⟨u, -, extra, -, -, frame⟩ := exec_rData_misused (n := 2) done.live (if_pos noPhase)
  refine ⟨t, u, run, done.idle, done.drq, done.drained, done.shown, done.live, extra, ?_, ?_, ?_⟩
  · rw [frame]
  · rw [frame]
    exact done.idle
  · rw [frame]

end Sys2Proof.Machine
end

section
/-! The ATA commands but the packet command and the unknown codes, settled: NOP, the soft reset, the identification block and
the transfer mode (R201 to R207). -/

namespace Sys2Proof.Machine

open Sys2Proof

/-! ## An accepted command (R169) -/

/-- A command that is taken is its handler's outcome on the accepted state. -/
theorem exec_accepted {code : Byte} {i : Instr} {s t : State} (live : s.live) (writes : writesCommand code i)
    (taken : code = 0x08 ∨ s.state = .waitcmd) (run : ataHandler code (acceptCommand s) = .ok t) : exec i s = .next t := by
  rw [exec_writesCommand live writes]
  rcases commandWrite_cases code (ataHandler code) s with ⟨notReset, busy, -⟩ | ⟨-, e⟩
  · exact absurd taken (not_or.mpr ⟨notReset, busy⟩)
  · rw [e, run]
    rfl

/-- The command path to a completion. -/
theorem status_command_done (w : Byte) :
    putBit (putBit (putBit (putBit (putBit w bsyBit true) drdyBit false) drqBit false) drdyBit true) bsyBit false =
      (w &&& 0x77#8) ||| 0x40#8 := by
  revert w
  decide

/-- What `ata_complete` leaves of a command accepted in `gds_waitcmd` (R183). -/
theorem ataComplete_accepted {s : State} (idle : s.state = .waitcmd) (k : IrqKind) :
    ataComplete k (acceptCommand s) = { s with
      status := (s.status &&& 0x77#8) ||| 0x40#8, intrq := true, obs := { s.obs with irqs := s.obs.irqs ++ [k] } } := by
  rw [idle, ← status_command_done]
  rfl

/-- What a failure leaves of a command accepted in `gds_waitcmd` (R345). -/
theorem raiseFail_accepted {s : State} (idle : s.state = .waitcmd) (e : Sense) (b : ErrorBit) :
    raiseFail e b .ata (acceptCommand s) = { s with
      status := (s.status &&& 0x77#8) ||| 0x41#8, error := errorValue e.key b, sense := e
      pio := { s.pio with cursor := 0, size := 0, nextState := .pioEnd }, dma := { s.dma with cursor := 0, size := 0 }
      readParams := ReadParams.cleared, pioLimit := 0, intrq := true
      obs := { s.obs with irqs := s.obs.irqs ++ [.error] } } := by
  rw [idle, ← status_command_failed]
  rfl

/-! ## NOP (R201) -/

/-- The idle status bits are the ones a completion writes (R49). -/
theorem status_idle : ∀ w : Byte, w.getLsbD bsyBit = false → w.getLsbD drdyBit = true → w.getLsbD drqBit = false →
    (w &&& 0x77#8) ||| 0x40#8 = w := by decide

/-- Settles O27: the completion writes the status bits of the idle state, which are there already. -/
theorem nopOnlySignals : Obligations.NopOnlySignals := by
  intro i s writes ⟨idle, live⟩ bsy drdy drq
  have run : ataHandler 0x00#8 (acceptCommand s) = .ok (ataComplete .complete (acceptCommand s)) := rfl
  rw [exec_accepted live writes (.inr idle) run, ataComplete_accepted idle, status_idle s.status bsy drdy drq]

/-! ## SOFT_RESET and EXEC_DIAG (R202, R203) -/

/-- The unit status after a reset, with the DiscFormat 0 above it (R50, R373). -/
def resetSectNum (s : State) : Byte := if s.trayOpen then 0x06 else if s.answers.present then 0x02 else 0x07

/-- `unit_refresh()` after a soft reset has forgotten the disc: it asks only with the tray closed (R371, R373). -/
theorem unitRefresh_softCleared (s : State) :
    unitRefresh (softCleared s) = { softCleared s with
      sectNum := resetSectNum s
      answers := (unitRefresh (softCleared s)).answers
      obs := { s.obs with queries := s.obs.queries ++ (if s.trayOpen then [] else [.isDiscPresent]) } } := by
  have forgotten (unit : BitVec 4) : ((softCleared s).putUnit unit).sectNum = 0#4 ++ unit :=
    putDiscFormat_putUnit_sectNum s 0 unit
  rcases unitRefresh_cases (softCleared s) with ⟨opened, e⟩ | ⟨closed, e⟩
  · have unit : resetSectNum s = 0#4 ++ unitOpen := if_pos opened
    rw [e, unit, ← forgotten, if_pos opened, List.append_nil]
    rfl
  · have shut : ¬ s.trayOpen = true := Bool.eq_false_iff.mp closed
    have unit : resetSectNum s = 0#4 ++ (if s.answers.present then unitStandby else unitNoDisc) := by
      rw [resetSectNum, if_neg shut]
      cases s.answers.present <;> rfl
    rw [e, unit, ← forgotten, if_neg shut]
    rfl

/-- What `enter(gds_waitcmd)` leaves where the status register is clear (R171). -/
theorem enterWaitcmd_clear {s : State} (clear : s.status = 0x00) :
    enterWaitcmd s = { s with state := .waitcmd, status := 0x40 } := by
  have ready : putBit (putBit 0x00 drdyBit true) bsyBit false = 0x40 := by decide
  rw [← ready, ← clear]
  rfl

/-- Settles O28: both codes run the soft reset, which overwrites what the acceptance wrote. -/
theorem softResetFromEveryState : Obligations.SoftResetFromEveryState := by
  intro i s live writes
  have run : exec i s = .next (raiseIrq .complete (softResetState s)) := by
    rcases writes with soft | ⟨diag, idle⟩
    · exact exec_accepted live soft (.inl rfl) rfl
    · exact exec_accepted live diag (.inr idle) rfl
  refine ⟨_, run, ?_⟩
  rw [softResetState_eq, unitRefresh_softCleared, enterWaitcmd_clear rfl]
  rfl

/-! ## IDENTIFY_DEVICE and IDENTIFY (R205, R206) -/

/-- Settles O30: both codes respond with the block, and its 80 bytes fix the size and the byte count. -/
theorem identifyOpensTheBlock : Obligations.IdentifyOpensTheBlock := by
  intro i s writes ⟨idle, live⟩ length
  have response : ataIdentify (acceptCommand s) = .ok (responding s.cfg.identifyBlock .pioEnd (acceptCommand s)) := by
    rcases pioRespond_cases s.cfg.identifyBlock .pioEnd (acceptCommand s) with ⟨empty, -⟩ | ⟨-, -, e⟩ | ⟨long, -⟩
    · simp [empty] at length
    · exact e
    · omega
  have run : exec i s = .next (responding s.cfg.identifyBlock .pioEnd (acceptCommand s)) := by
    rcases writes with identifyDevice | identify
    · exact exec_accepted live identifyDevice (.inr idle) response
    · exact exec_accepted live identify (.inr idle) response
  have phase : PhaseToHost s.cfg.identifyBlock 0x3F#8 .pioEnd [] s
      (responding s.cfg.identifyBlock .pioEnd (acceptCommand s)) := by
    refine phaseToHost_responding _ _ _ _ _ _ ?_ rfl (by simp [acceptCommand_eq]) rfl
    rw [acceptCommand_eq]
    exact status_packet_awaited s.status
  obtain ⟨-, words, -⟩ := phase.buffer
  refine ⟨_, run, phase, ?_, ?_, rfl⟩
  · exact BitVec.eq_of_toNat_eq (by rw [phase.posted, length]; rfl)
  · rw [words, length]

/-! ## SET_FEATURES (R207) -/

/-- FEATURES asks for the transfer mode to be set exactly with the value 3: function 3, value bit 0. -/
theorem features_setsMode : ∀ f : Byte, (f.extractLsb' 0 7 == 3 && !f.getLsbD 7) = true ↔ f.toNat = 3 := by decide

/-- The transfer modes that are accepted, with the mode number in the upper five bits of SECTCOUNT. -/
theorem sectCount_modeValid : ∀ m : Byte,
    ((m.extractLsb' 3 5 == 0 && (m.extractLsb' 0 3).extractLsb' 1 2 == 0) || m.extractLsb' 3 5 == 1 || m.extractLsb' 3 5 == 2 ||
      m.extractLsb' 3 5 == 4) = true ↔
    (m.toNat / 8 = 0 ∧ m.toNat < 2) ∨ m.toNat / 8 = 1 ∨ m.toNat / 8 = 2 ∨ m.toNat / 8 = 4 := by decide

theorem featurePairValid_iff (f m : Byte) : featurePairValid f m = true ↔
    f.toNat = 3 ∧ ((m.toNat / 8 = 0 ∧ m.toNat < 2) ∨ m.toNat / 8 = 1 ∨ m.toNat / 8 = 2 ∨ m.toNat / 8 = 4) := by
  rw [featurePairValid, Bool.and_eq_true, features_setsMode, sectCount_modeValid]

theorem dmaModeSelected_eq : ∀ m : Byte, dmaModeSelected m = decide (m.toNat / 8 = 2 ∨ m.toNat / 8 = 4) := by decide

/-- The transfer mode of SECTCOUNT is recorded, with its DMA-enable bit (R29, R39). -/
abbrev modeRecorded (s : State) : State :=
  { s with transferMode := s.sectCount, dmaEnable := dmaModeSelected s.sectCount }

/-- Settles O31: a valid pair completes with the mode recorded, every other pair fails at the ATA level. -/
theorem setFeaturesRecordsTheMode : Obligations.SetFeaturesRecordsTheMode := by
  intro i s writes ⟨idle, live⟩ mode valid
  have checked : featurePairValid s.features s.sectCount = true ↔ valid := featurePairValid_iff s.features s.sectCount
  constructor
  · intro accepted
    rw [← dmaModeSelected_eq]
    have run : ataHandler 0xEF#8 (acceptCommand s) = .ok (ataComplete .complete (acceptCommand (modeRecorded s))) :=
      if_pos (checked.mpr accepted)
    rw [exec_accepted live writes (.inr idle) run, ataComplete_accepted (s := modeRecorded s) idle]
  · intro rejected
    have run : ataHandler 0xEF#8 (acceptCommand s) = .ok (raiseFail ⟨0xB, 0x00, 0x00⟩ .abrt .ata (acceptCommand s)) :=
      if_neg (mt checked.mp rejected)
    rw [exec_accepted live writes (.inr idle) run, raiseFail_accepted idle]
    rfl

end Sys2Proof.Machine
end

section
/-! The tray closed, a playback resumed, and the positioning packets with bad fields, settled: TrayClose, CD_PLAY, CD_SEEK and
CD_SCAN. -/

namespace Sys2Proof.Machine

open Sys2Proof

/-! ## TrayClose (R266) -/

/-- The sector number that a reset leaves with the tray closed, in its two fields (R373). -/
theorem resetSectNum_closed {s : State} (closed : s.trayOpen = false) :
    resetSectNum s = 0#4 ++ (if s.answers.present then unitStandby else unitNoDisc) := by
  rw [resetSectNum, if_neg (Bool.eq_false_iff.mp closed)]
  cases s.answers.present <;> rfl

/-- The tray closed, before the drive asks for the disc. -/
abbrev trayShut (s : State) : State := { s with trayOpen := false }

/-- On an open tray the drive forgets the TOC and asks whether a disc is in, as a reset does (R266, R373). -/
theorem closeTray_open {s : State} (opened : s.trayOpen = true) :
    closeTray s = { s with
      trayOpen := false
      tocCache := none
      sectNum := resetSectNum (trayShut s)
      answers := (closeTray s).answers
      obs := { s.obs with queries := s.obs.queries ++ [.isDiscPresent] } } := by
  have close : closeTray s = unitRefresh (trayShut s).dropToc := if_pos opened
  have fields (unit : BitVec 4) : ((trayShut s).dropToc.putUnit unit).sectNum = 0#4 ++ unit :=
    putDiscFormat_putUnit_sectNum (trayShut s) 0 unit
  rcases unitRefresh_cases (trayShut s).dropToc with ⟨still, -⟩ | ⟨-, e⟩
  · cases still
  · rw [close, e, resetSectNum_closed (s := trayShut s) rfl, ← fields]
    rfl

/-- Settles O59: the tray is closed before the drive asks for the disc, so it asks once. -/
theorem trayCloseRefreshesTheDrive : Obligations.TrayCloseRefreshesTheDrive := by
  intro s live
  have run : exec .trayClose s = .next (closeTray s) := whileLive_live s _ live
  rw [run]
  constructor
  · intro closed
    have same : closeTray s = s := if_neg (Bool.eq_false_iff.mp closed)
    rw [same]
  · intro opened
    exact ⟨_, rfl, closeTray_open opened⟩

/-! ## CD_PLAY of parameter type 7 (R269) -/

theorem spiCdPlay_resumes {p : Params} {s : State} (ready : s.ready) (type : paramType p = 7) :
    spiCdPlay p s = resume (askedPresent s) := by
  rw [← ptype_toNat] at type
  rw [spiCdPlay, needReady_ready _ s ready]
  simp only [type]

/-- A paused playback that goes on where it is (R269). -/
abbrev playResumed (s : State) : State := { s with cdda := { s.cdda with status := .playing } }.putUnit unitPlay

/-- A paused playback that is outside its range and ends (R269). -/
abbrev playTerminated (s : State) : State := { s with cdda := { s.cdda with status := .terminated } }.putUnit unitStandby

/-- Everything a resume can do (R269). -/
theorem resume_cases (s : State) :
    (s.cdda.status = .paused ∧ s.cdda.start.toNat ≤ s.cdda.current.toNat ∧ s.cdda.current.toNat ≤ s.cdda.last.toNat ∧
      resume s = .ok (spiDone (playResumed s))) ∨
    (s.cdda.status = .paused ∧ (s.cdda.current.toNat < s.cdda.start.toNat ∨ s.cdda.last.toNat < s.cdda.current.toNat) ∧
      resume s = .ok (spiDone (playTerminated s))) ∨
    (s.cdda.status ≠ .paused ∧ resume s = .ok (spiDone s)) := by
  by_cases paused : s.cdda.status = .paused
  · rw [resume, if_pos paused]
    by_cases inside : s.cdda.inRange s.cdda.current = true
    · obtain ⟨low, high⟩ := (Cdda.inRange_iff _ _).mp inside
      exact .inl ⟨paused, low, high, if_pos inside⟩
    · have outside := mt (Cdda.inRange_iff s.cdda s.cdda.current).mpr inside
      exact .inr (.inl ⟨paused, by omega, if_neg inside⟩)
  · exact .inr (.inr ⟨paused, if_neg paused⟩)

/-- Settles O47: a resume has three outcomes, and each meets its own clause and none of the other two. -/
theorem resumeOnlyFromPaused : Obligations.ResumeOnlyFromPaused := by
  intro p s a ready type
  have run := spiCdPlay_resumes (s := dispatched 0x20 p s) ready type
  rcases resume_cases (askedPresent (dispatched 0x20 p s)) with
    ⟨paused, low, high, e⟩ | ⟨paused, outside, e⟩ | ⟨other, e⟩
  · refine ⟨_, runPacket_next 0x20 spiCdPlay p s _ a (run.trans e), ?_, rfl, putUnit_discFormat s _,
      fun _ _ _ => ⟨rfl, putUnit_unitStatus s _⟩, fun _ out => ?_, fun other => absurd paused other, rfl⟩
    · exact commandEnds_packet _ s _ rfl rfl rfl
    · exact absurd out (not_or.mpr ⟨Nat.not_lt.mpr low, Nat.not_lt.mpr high⟩)
  · refine ⟨_, runPacket_next 0x20 spiCdPlay p s _ a (run.trans e), ?_, rfl, putUnit_discFormat s _,
      fun _ low high => ?_, fun _ _ => ⟨rfl, putUnit_unitStatus s _⟩, fun other => absurd paused other, rfl⟩
    · exact commandEnds_packet _ s _ rfl rfl rfl
    · exact absurd outside (not_or.mpr ⟨Nat.not_lt.mpr low, Nat.not_lt.mpr high⟩)
  · refine ⟨_, runPacket_next 0x20 spiCdPlay p s _ a (run.trans e), ?_, rfl, rfl,
      fun paused => absurd paused other, fun paused => absurd paused other, fun _ => ⟨rfl, rfl⟩, rfl⟩
    exact commandEnds_packet _ s _ rfl rfl rfl

/-! ## Bad fields (R268, R270, R274, R332) -/

/-- A parameter type that the packet does not have fails behind the question for the disc (R268, R270, R274). -/
theorem spiCdPlay_badType {p : Params} {s : State} (ready : s.ready) (type : paramType p ∉ [1, 2, 7]) :
    spiCdPlay p s = .ok (failField (askedPresent s)) := by
  rw [← ptype_toNat] at type
  rw [spiCdPlay, needReady_ready _ s ready]
  split
  case h_4 => rfl
  all_goals
    rename_i named
    exact absurd (by simp [named]) type

theorem spiCdSeek_badType {p : Params} {s : State} (ready : s.ready) (type : paramType p ∉ [1, 2, 4]) :
    spiCdSeek p s = .ok (failField (askedPresent s)) := by
  rw [← ptype_toNat] at type
  rw [spiCdSeek, needReady_ready _ s ready]
  split
  case h_4 => rfl
  all_goals
    rename_i named
    exact absurd (by simp [named]) type

theorem spiCdScan_badType {p : Params} {s : State} (ready : s.ready) (type : paramType p ∉ [1, 2]) :
    spiCdScan p s = .ok (failField (askedPresent s)) := by
  rw [← ptype_toNat] at type
  rw [spiCdScan, needReady_ready _ s ready]
  split
  case h_3 => rfl
  all_goals
    rename_i named
    exact absurd (by simp [named]) type

/-- A target outside the programmed range fails the range test. -/
theorem inRange_position_outside {c : Cdda} {p : Params}
    (outside : targetAddress p < c.start.toNat ∨ c.last.toNat < targetAddress p) : ¬ c.inRange p.position = true := by
  rw [inRange_position]
  omega

/-- A seek of a playback outside its range is rejected (R270). -/
theorem seekTo_outside {p : Params} {s : State} (playing : s.cdda.status = .playing)
    (outside : targetAddress p < s.cdda.start.toNat ∨ s.cdda.last.toNat < targetAddress p) :
    seekTo p s = .ok (failField s) :=
  if_pos ⟨playing, Bool.eq_false_iff.mpr (inRange_position_outside outside)⟩

/-- A scan from outside the range is rejected (R274). -/
theorem scanFrom_outside {p : Params} {s : State}
    (outside : targetAddress p < s.cdda.start.toNat ∨ s.cdda.last.toNat < targetAddress p) :
    scanFrom p s = .ok (failField s) :=
  if_neg (inRange_position_outside outside)

/-- The fields that a positioning packet rejects without a look at the TOC (R332's rows for R268, R270 and R274). -/
abbrev badField (opcode : Byte) (p : Params) (s : State) : Prop :=
  (opcode = 0x20#8 ∧ paramType p ∉ [1, 2, 7]) ∨ (opcode = 0x21#8 ∧ paramType p ∉ [1, 2, 4]) ∨
  (opcode = 0x22#8 ∧ paramType p ∉ [1, 2]) ∨
  (opcode = 0x21#8 ∧ s.cdda.status = .playing ∧ (paramType p = 1 ∨ paramType p = 2) ∧
    (targetAddress p < s.cdda.start.toNat ∨ s.cdda.last.toNat < targetAddress p)) ∨
  (opcode = 0x22#8 ∧ (paramType p = 1 ∨ paramType p = 2) ∧
    (targetAddress p < s.cdda.start.toNat ∨ s.cdda.last.toNat < targetAddress p))

/-- Such a packet asks for the disc and fails. -/
theorem spiHandler_badField {opcode : Byte} {p : Params} {s : State} (ready : s.ready) (bad : badField opcode p s) :
    spiHandler opcode p s = .ok (failField (askedPresent s)) := by
  rcases bad with ⟨rfl, type⟩ | ⟨rfl, type⟩ | ⟨rfl, type⟩ | ⟨rfl, playing, type, outside⟩ | ⟨rfl, type, outside⟩
  · exact spiCdPlay_badType ready type
  · exact spiCdSeek_badType ready type
  · exact spiCdScan_badType ready type
  · exact (spiCdSeek_positions ready type).trans (seekTo_outside playing outside)
  · exact (spiCdScan_positions ready type).trans (scanFrom_outside outside)

/-- A playback whose range is not inside the disc, or runs backward, fails behind both questions (R268). -/
theorem spiCdPlay_badRange {p : Params} {s : State} {toc : Toc} {first : Track} {rest : List Track} (ready : s.ready)
    (has : s.hasToc toc) (tracks : toc.tracks = first :: rest) (type : paramType p = 1 ∨ paramType p = 2)
    (bad : targetAddress p < first.fad.toNat ∨ endAddress p < targetAddress p ∨ toc.leadout.fad.toNat < endAddress p) :
    ∃ answers, spiCdPlay p s = .ok (failField (tocAnswered answers toc s)) := by
  have rejected : ¬ playRangeOk toc p.position p.endPosition = true := by
    rw [playRangeOk_iff tracks, position_toNat, endPosition_toNat]
    omega
  obtain ⟨answers, asked⟩ := needToc_has ready has
  exact ⟨answers, by rw [spiCdPlay_positions ready type, playFrom, asked, if_neg rejected]⟩

/-- Settles O50: each bad field leads to the one failure, behind the question for the disc or behind both questions. -/
theorem positioningRejectsBadFields : Obligations.PositioningRejectsBadFields := by
  intro p s a ready
  constructor
  · intro opcode bad
    have run := spiHandler_badField (s := dispatched opcode p s) ready bad
    rw [exec_decodePacket]
    refine ⟨_, runPacket_next opcode (spiHandler opcode) p s _ a run, ?_, rfl, rfl⟩
    exact commandFails_packet _ _ .ili _ s _ rfl rfl rfl rfl rfl
  · intro toc first rest has tracks type bad
    obtain ⟨answers, run⟩ := spiCdPlay_badRange (s := dispatched 0x20 p s) ready has tracks type bad
    refine ⟨_, runPacket_next 0x20 spiCdPlay p s _ a run, ?_, rfl, rfl⟩
    exact commandFails_packet _ _ .ili _ s _ rfl rfl rfl rfl rfl

end Sys2Proof.Machine
end

section
/-! The sector sizes, the sector reads that do not start, the chunks of a PIO read and the DMA engine's question, settled. -/

namespace Sys2Proof.Machine

open Sys2Proof

/-! ## DmaAvail (R296) -/

/-- DmaAvail returns its count and changes nothing else. -/
theorem exec_dmaAvail {s : State} (live : s.live) :
    exec .dmaAvail s = .next (s.returning (.count (dmaAvailable s))) :=
  whileLive_live s _ live

theorem dmaAvailable_reading {s : State} (phase : s.state = .readsectorDma) :
    dmaAvailable s = s.dma.size - s.dma.cursor :=
  if_pos phase

theorem dmaAvailable_elsewhere {s : State} (phase : s.state ≠ .readsectorDma) : dmaAvailable s = 0 :=
  if_neg phase

/-- Settles O55: the count is the unread bytes in its one state. -/
theorem dmaAvailTellsTheUnreadBytes : Obligations.DmaAvailTellsTheUnreadBytes := by
  intro s live
  refine ⟨fun phase => ?_, fun phase => ?_⟩
  · rw [exec_dmaAvail live, dmaAvailable_reading phase]
    rfl
  · rw [exec_dmaAvail live, dmaAvailable_elsewhere phase]
    rfl

/-! ## Sector sizes (R283) -/

/-- A mandatory entry stands before the configuration's further ones. -/
theorem sectorSize_mandatory {c : Config} {st : BitVec 7} {size : Nat} (h : mandatorySectorSize st = some size) :
    sectorSize c st = some size := by
  rw [sectorSize, h]

/-- With no further entries the mandatory ones are all there are. -/
theorem sectorSize_noEntries {c : Config} (st : BitVec 7) (none : c.sectorEntries = []) :
    sectorSize c st = mandatorySectorSize st := by
  rw [sectorSize, none]
  cases mandatorySectorSize st with
  | some size => rfl
  | none => rfl

/-- The descriptors of whole raw sectors. -/
theorem mandatorySectorSize_raw : ∀ st : BitVec 7, 0x78 ≤ st.toNat → st.toNat ≤ 0x7E →
    mandatorySectorSize st = some 2352 := by
  decide

/-- The descriptors of the mandatory table. -/
theorem mandatorySectorSize_isSome : ∀ st : BitVec 7, (mandatorySectorSize st).isSome = true →
    st.toNat ∈ [0x12, 0x14, 0x15] ∨ (0x78 ≤ st.toNat ∧ st.toNat ≤ 0x7E) := by
  decide

/-- Settles O52: the table is looked up first, and further entries are taken only where they keep the constraint. -/
theorem mandatorySectorSizes : Obligations.MandatorySectorSizes := by
  refine ⟨fun c => ⟨?_, ?_, ?_, fun st low high => ?_, sectorSize_ok c⟩, fun c st none sized => ?_⟩
  · exact sectorSize_mandatory rfl
  · exact sectorSize_mandatory rfl
  · exact sectorSize_mandatory rfl
  · exact sectorSize_mandatory (mandatorySectorSize_raw st low high)
  · rw [sectorSize_noEntries st none] at sized
    exact mandatorySectorSize_isSome st sized

/-! ## Sector reads that do not start (R286, R350, R351) -/

/-- A misuse found later in the operation leaves the state before it, the reason and the queries made by then. -/
theorem applied_misused_after {s : State} (live : s.live) (r : Misuse) (u : State) :
    applied s (misused r u) = .next { s with misuse := some r, obs := { s.obs with queries := u.obs.queries } } := by
  simp [applied, misused, recordHalt, live.1]

/-- So does a refusal. -/
theorem applied_refusedFor_after {s : State} (live : s.live) (r : RefuseReason) (u : State) :
    applied s (refusedFor r u) = .next { s with refused := some r, obs := { s.obs with queries := u.obs.queries } } := by
  simp [applied, refusedFor, recordHalt, live.2]

/-- Without a size the read is refused before anything is asked. -/
theorem readStart_unsized {p : Params} {count : Nat} {s : State} (unsized : sectorSize s.cfg p.sectorType = none) :
    readStart p count s = refusedFor .unspecifiedSectorSelection s := by
  rw [readStart, unsized]

/-- A PIO read of some sectors without a usable limit is a misuse, found behind the question for the disc. -/
theorem readStart_limitTooSmall {p : Params} {count size : Nat} {s : State}
    (sized : sectorSize s.cfg p.sectorType = some size) (ready : s.ready) (pio : s.dmaEnable = false) (some : 0 < count)
    (small : s.byteCount.toNat < 2) : readStart p count s = misused .pioLimitTooSmall (askedPresent s) := by
  simp only [readStart, sized, needReady_ready _ _ ready]
  exact if_pos ⟨pio, some, small⟩

/-- A read of no sectors needs no limit: it begins on its path. -/
theorem readStart_noSectors {p : Params} {size : Nat} {s : State} (sized : sectorSize s.cfg p.sectorType = some size)
    (ready : s.ready) :
    readStart p 0 s =
      if s.dmaEnable then enterReadsectorDma (readBegun p 0 (askedPresent s))
      else enterReadsectorPio (readBegun p 0 (askedPresent s)) := by
  simp only [readStart, sized, needReady_ready _ _ ready]
  exact if_neg fun h => Nat.lt_irrefl 0 h.2.1

/-- The status path from a packet's dispatch through the engine to a completion with no chunk (R173, R176, R291). -/
theorem status_read_none_pio (w : Byte) :
    putBit (putBit (putBit (putBit (putBit (putBit (putBit (putBit (putBit w drqBit false) bsyBit true) bsyBit true) drqBit false)
      drdyBit true) drqBit false) bsyBit false) drdyBit true) bsyBit false = (w &&& 0x77#8) ||| 0x40#8 := by
  rw [status_read_busy]
  exact status_block_done w

/-- Settles O51: both sector reads run one procedure, which tests the size, the disc and the limit in turn; with no sectors
either path finds nothing to fetch and completes. -/
theorem sectorReadsThatDoNotStart : Obligations.SectorReadsThatDoNotStart := by
  refine ⟨fun i opcode p count s a reads => ⟨?unsized, ?limit⟩, ?none⟩
  case unsized =>
    intro unsized
    rw [exec_readsSectors a reads, readStart_unsized (s := dispatched opcode p s) unsized, applied_refusedFor_after a.1]
    rfl
  case limit =>
    intro size sized ready pio some small
    rw [exec_readsSectors a reads, readStart_limitTooSmall (s := dispatched opcode p s) sized ready pio some small,
      applied_misused_after a.1]
    rfl
  case none =>
    intro i opcode p s a ready reads sized
    obtain ⟨size, sized⟩ := Option.isSome_iff_exists.mp sized
    rw [exec_readsSectors a reads, readStart_noSectors (s := dispatched opcode p s) sized ready]
    by_cases dma : s.dmaEnable = true
    · refine ⟨_, congrArg (applied s) ((if_pos dma).trans (dmaService_done rfl rfl)), ?_, rfl, rfl⟩
      exact commandEnds_packet _ s (engaged .readsectorDma (readOf opcode p 0 s)) (status_read_busy s.status) rfl rfl
    · refine ⟨_, congrArg (applied s) ((if_neg dma).trans (enterReadsectorPio_done rfl rfl)), ?_, rfl, rfl⟩
      rw [enterPioEnd_eq]
      exact commandEnds_done _ _ _ s _ (status_read_none_pio s.status) rfl rfl

/-! ## The chunks of a PIO read (R291, R292) -/

/-- A chunk on offer is posted exactly: an even number of bytes within R292's bounds and the latched limit. -/
def ChunkPosted (t : State) : Prop :=
  t.readingByPio → t.byteCount.toNat = 2 * t.pio.size ∧ 2 ≤ t.byteCount.toNat ∧ t.byteCount.toNat ≤ 65534 ∧
    t.byteCount.toNat ≤ t.pioLimit.toNat

section Chunks

variable {i : Instr} {s t : State}

theorem chunkPosted_of_state (other : t.state ≠ .pioSendData) : ChunkPosted t :=
  fun reading => absurd reading.1 other

theorem chunkPosted_of_idle (idle : t.state = .waitcmd) : ChunkPosted t :=
  chunkPosted_of_state (by rw [idle]; exact nofun)

/-- A response is not a chunk: its phase ends the command (R181). -/
theorem chunkPosted_responding (bytes : List Byte) (s : State) : ChunkPosted (responding bytes .pioEnd s) :=
  fun reading => absurd reading.2 nofun

/-- A chunk's size, posted and in words (R174, R291). -/
theorem chunkOffered_size (s : State) :
    (chunkOffered s).pio.size = (min (2 * (s.pioLimit.toNat / 2)) (s.dma.size - s.dma.cursor) + 1) / 2 ∧
    (chunkOffered s).byteCount.toNat = 2 * (chunkOffered s).pio.size % 65536 := by
  refine ⟨?_, BitVec.toNat_ofNat _ _⟩
  rw [chunkOffered_eq]
  exact congrArg (fun bytes => (bytes + 1) / 2) (Memory.slice_length _ _ _)

/-- What is offered of an even number of bytes waiting, within a usable limit (R292). -/
theorem chunkPosted_chunkOffered (left : s.dma.cursor < s.dma.size) (limit : 2 ≤ s.pioLimit.toNat)
    (even : (s.dma.size - s.dma.cursor) % 2 = 0) : ChunkPosted (chunkOffered s) := by
  intro _
  obtain ⟨words, posted⟩ := chunkOffered_size s
  have kept : (chunkOffered s).pioLimit.toNat = s.pioLimit.toNat := rfl
  have bits := s.pioLimit.isLt
  omega

/-- The engine's PIO path posts what it offers (R291). -/
theorem chunkPosted_enterReadsectorPio (bounds : s.dma.cursor ≤ s.dma.size)
    (limit : s.dma.cursor ≠ s.dma.size ∨ s.readParams.remaining ≠ 0 → 2 ≤ s.pioLimit.toNat)
    (even : (s.dma.size - s.dma.cursor) % 2 = 0) (e : enterReadsectorPio s = .ok t) : ChunkPosted t := by
  rcases enterReadsectorPio_cases e with ⟨-, -, rfl⟩ | ⟨some, size, bytes, r, rfl⟩ | rfl | ⟨left, rfl⟩
  · exact chunkPosted_of_idle rfl
  · obtain ⟨-, even', filled⟩ := refill_size r
    exact chunkPosted_chunkOffered (filled some) (limit (.inr some)) even'
  · exact chunkPosted_of_idle (readFail_idle _)
  · exact chunkPosted_chunkOffered (s := engaged .readsectorPio s) (Nat.lt_of_le_of_ne bounds left) (limit (.inl left)) even

/-- The DMA service posts nothing (R295). -/
theorem chunkPosted_dmaService (phase : s.state = .readsectorDma) (e : dmaService s = .ok t) : ChunkPosted t := by
  refine chunkPosted_of_state ?_
  rcases dmaService_state e with h | h
  · rw [h, phase]
    exact nofun
  · rw [h]
    exact nofun

/-- A packet posts a chunk only where it begins a read by PIO, with an empty DmaBuffer and a usable limit (R286). -/
theorem chunkPosted_answered {op : SpiOp} {u : State} (a : Answered op u t) : ChunkPosted t := by
  cases a with
  | done | failed => exact chunkPosted_of_idle rfl
  | responds => exact chunkPosted_responding _ _
  | receives => exact chunkPosted_of_state nofun
  | stores _ e => exact chunkPosted_of_idle (enterProcessSetMode_idle e)
  | readsByDma _ _ _ _ e => exact chunkPosted_dmaService rfl e
  | readsByPio _ _ _ limit _ e =>
    exact chunkPosted_enterReadsectorPio (Nat.le_refl 0)
      (fun some => limit (Nat.pos_of_ne_zero (some.resolve_left fun h => h rfl))) rfl e

/-- A DATA read raises its interrupt only with the last word, and a read then goes on in the engine (R164). -/
theorem hostReadData_silent_or_chunkPosted {n : Nat} (inv : Inv s) (e : hostReadData n s = .ok t) :
    t.obs.irqs = s.obs.irqs ∨ ChunkPosted t := by
  obtain ⟨phase, -, -, e⟩ := hostReadData_ok e
  rcases endPhaseIfDrained_cases (wordRead s) with ⟨-, e'⟩ | ⟨-, e'⟩
  · replace e := e'.symm.trans e
    have next : (wordRead s).pio.nextState = .pioEnd ∨ (wordRead s).pio.nextState = .readsectorPio :=
      inv.continuations.1 phase
    rcases next with next | next
    · rw [next] at e
      cases e
      exact .inr (chunkPosted_of_idle rfl)
    · rw [next] at e
      have reading : s.readingByPio := ⟨phase, next⟩
      exact .inr (chunkPosted_enterReadsectorPio (s := (wordRead s).putStatus drqBit false) inv.dmaBounds.1
        (fun _ => inv.limitUsable reading) (inv.batchEven reading) e)
  · cases e'.symm.trans e
    exact .inl rfl

/-- A DATA write that is applied posts a chunk only as the end of a packet (R166, R167). -/
theorem chunkPosted_hostWriteData {n : Nat} {v : Half} (inv : Inv s) (e : hostWriteData n v s = .ok t) : ChunkPosted t := by
  rcases hostWriteData_ok e with ⟨waits, -, -, -, rfl⟩ | ⟨-, -, -, -, run⟩ | ⟨phase, -, run⟩
  · exact chunkPosted_of_state fun sends => absurd (waits.symm.trans sends) nofun
  · exact chunkPosted_answered (spiHandler_leads _ _ .start run)
  · rcases wordStored_state inv phase run with h | h
    · exact chunkPosted_of_state (by rw [h]; exact nofun)
    · exact chunkPosted_of_idle h

theorem chunkPosted_unapplied (h : ChunkPosted s) (u : Unapplied s t) : ChunkPosted t := by
  rw [u]
  exact h

theorem chunkPosted_writeWords (ws : List Half) (inv : Inv s) (h : ChunkPosted s) : ChunkPosted (writeWords ws s) := by
  induction ws generalizing s with
  | nil => exact h
  | cons v rest ih =>
    unfold writeWords
    split
    next u hu => exact ih (inv_hostWriteData inv hu) (chunkPosted_hostWriteData inv hu)
    next f _ => exact chunkPosted_unapplied h (unapplied_recordHalt f s)

/-- The words of a packet raise nothing where the first is not applied, and after an applied one a chunk is as posted. -/
theorem writeWords_silent_or_chunkPosted (ws : List Half) (inv : Inv s) :
    (writeWords ws s).obs.irqs = s.obs.irqs ∨ ChunkPosted (writeWords ws s) := by
  cases ws with
  | nil => exact .inl rfl
  | cons v rest =>
    unfold writeWords
    split
    next u hu =>
      exact .inr (chunkPosted_writeWords rest (inv_hostWriteData inv hu) (chunkPosted_hostWriteData inv hu))
    next f _ =>
      rw [unapplied_recordHalt f s]
      exact .inl rfl

/-- No command reads sectors (R200). -/
theorem chunkPosted_commanded {resets : Prop} (cmd : Commanded resets s t) : ChunkPosted t := by
  cases cmd with
  | done | modeSet | empty | failed => exact chunkPosted_of_idle rfl
  | reset =>
    rw [softResetState_eq, unitRefresh_frame]
    exact chunkPosted_of_idle rfl
  | packet => exact chunkPosted_of_state nofun
  | responds => exact chunkPosted_responding _ _

/-- Every operation that is applied raises nothing or leaves a chunk as posted. -/
theorem ran_silent_or_chunkPosted (inv : Inv s) (r : Ran i s t) : t.obs.irqs = s.obs.irqs ∨ ChunkPosted t := by
  cases r with
  | accessed a =>
    rw [a]
    exact .inl rfl
  | read _ e => exact hostReadData_silent_or_chunkPosted inv e
  | written _ e => exact .inr (chunkPosted_hostWriteData inv e)
  | commanded _ h => exact .inr (chunkPosted_commanded h)
  | dispatched _ _ _ a => exact .inr (chunkPosted_answered a)
  | wrote => exact writeWords_silent_or_chunkPosted _ inv
  | pulled e =>
    obtain ⟨phase, -, run⟩ := dmaPullBytes_ok e
    refine .inr (chunkPosted_dmaService ?_ run)
    exact phase
  | advanced =>
    rw [cddaStep_frame]
    exact .inl rfl
  | trayClosed => exact .inl (quiet_closeTray (c := True) (p := True)).requests.1
  | poweredOn => exact .inl (hardReset_quiet s).1

end Chunks

/-- Settles O13: an interrupt that leaves a chunk on offer is the one that has posted it. -/
theorem chunksAreEvenAndFit : Obligations.ChunksAreEvenAndFit := by
  intro i s t inv e raised reading
  rcases exec_ran e with u | r
  · exact absurd (by rw [u]) raised
  · rcases ran_silent_or_chunkPosted inv r with silent | posted
    · exact absurd silent raised
    · exact posted reading

end Sys2Proof.Machine
end

section
/-! The CD audio sequencer, settled: the tick-driven table and the run to the end of a range (R310 to R314). -/

namespace Sys2Proof.Machine

open Sys2Proof

/-! ## What an advance leaves (R312) -/

/-- The playback at another frame of its range. -/
abbrev atFrame (f : Fad) (s : State) : State := { s with cdda := { s.cdda with current := f } }

/-- The playback back at its start, with one repeat fewer. -/
abbrev playLooped (s : State) : State :=
  { s with cdda := { s.cdda with repeats := s.cdda.repeats - 1, current := s.cdda.start } }

/-- The playback stopped at its end. -/
abbrev playEnded (s : State) : State :=
  { s with cdda := { s.cdda with current := s.cdda.last, status := .terminated, scan := .none } }.putUnit unitStandby

/-- The playback stopped at its start. -/
abbrev playRewound (s : State) : State :=
  { s with cdda := { s.cdda with current := s.cdda.start, status := .paused, scan := .none } }.putUnit unitPause

/-! ## The two branches (R312) -/

section Branches

variable {s : State}

/-- The frame after a move toward the end is the end exactly from the end and the frame before it. -/
theorem nextFrame_eq_last_iff {c : Cdda} (high : c.current.toNat ≤ c.last.toNat) :
    (if c.current.toNat < c.last.toNat then c.current + 1 else c.current) = c.last ↔
      c.last.toNat ≤ c.current.toNat + 1 := by
  rw [← BitVec.toNat_inj]
  split
  next before =>
    rw [fad_succ_toNat before]
    omega
  next => omega

/-- The frame after a move toward the start is the start exactly from the start and the frame after it. -/
theorem previousFrame_eq_start_iff {c : Cdda} (low : c.start.toNat ≤ c.current.toNat) :
    (if c.start.toNat < c.current.toNat then c.current - 1 else c.current) = c.start ↔
      c.current.toNat ≤ c.start.toNat + 1 := by
  rw [← BitVec.toNat_inj]
  split
  next after =>
    rw [fad_pred_toNat after]
    omega
  next => omega

theorem advanceForward_moves (before : s.cdda.current.toNat + 1 < s.cdda.last.toNat) :
    advanceForward s = atFrame (s.cdda.current + 1) s := by
  have inside : s.cdda.current.toNat < s.cdda.last.toNat := by omega
  have notLast := mt (nextFrame_eq_last_iff (Nat.le_of_lt inside)).mp (Nat.not_le.mpr before)
  refine (if_neg notLast).trans ?_
  rw [if_pos inside]

theorem advanceForward_loops (high : s.cdda.current.toNat ≤ s.cdda.last.toNat)
    (reached : s.cdda.last.toNat ≤ s.cdda.current.toNat + 1) (left : 0 < s.cdda.repeats.toNat) :
    advanceForward s = playLooped s :=
  (if_pos ((nextFrame_eq_last_iff high).mpr reached)).trans (if_pos left)

theorem advanceForward_ends (high : s.cdda.current.toNat ≤ s.cdda.last.toNat)
    (reached : s.cdda.last.toNat ≤ s.cdda.current.toNat + 1) (last : s.cdda.repeats.toNat = 0) :
    advanceForward s = playEnded s := by
  have atLast := (nextFrame_eq_last_iff high).mpr reached
  refine (if_pos atLast).trans ((if_neg (Nat.not_lt.mpr (Nat.le_of_eq last))).trans ?_)
  rw [atLast]

theorem advanceReverse_moves (after : s.cdda.start.toNat + 1 < s.cdda.current.toNat) :
    advanceReverse s = atFrame (s.cdda.current - 1) s := by
  have inside : s.cdda.start.toNat < s.cdda.current.toNat := by omega
  have notStart := mt (previousFrame_eq_start_iff (Nat.le_of_lt inside)).mp (Nat.not_le.mpr after)
  refine (if_neg notStart).trans ?_
  rw [if_pos inside]

theorem advanceReverse_pauses (low : s.cdda.start.toNat ≤ s.cdda.current.toNat)
    (reached : s.cdda.current.toNat ≤ s.cdda.start.toNat + 1) : advanceReverse s = playRewound s := by
  have atStart := (previousFrame_eq_start_iff low).mpr reached
  refine (if_pos atStart).trans ?_
  rw [atStart]

/-! ## The step (R312) -/

theorem cddaStep_still (other : s.cdda.status ≠ .playing) : cddaStep s = s := if_neg other

theorem cddaStep_forward (playing : s.cdda.status = .playing) (scan : s.cdda.scan ≠ .reverse) :
    cddaStep s = advanceForward s := by
  rw [cddaStep, if_pos playing]
  split
  next reverse => exact absurd reverse scan
  next => rfl
  next => rfl

theorem cddaStep_reverse (playing : s.cdda.status = .playing) (scan : s.cdda.scan = .reverse) :
    cddaStep s = advanceReverse s := by
  rw [cddaStep, if_pos playing, scan]

/-- An advance writes the unit status alone of the sector number (R310). -/
theorem cddaStep_discFormat (s : State) : (cddaStep s).discFormat = s.discFormat := by
  have reverse : (advanceReverse s).discFormat = s.discFormat := by
    unfold advanceReverse
    extract_lets c cur
    split
    · exact putUnit_discFormat _ _
    · rfl
  have forward : (advanceForward s).discFormat = s.discFormat := by
    unfold advanceForward
    extract_lets c cur
    split
    · split
      · rfl
      · exact putUnit_discFormat _ _
    · rfl
  unfold cddaStep
  split
  · split
    · exact reverse
    · exact forward
    · exact forward
  · rfl

theorem exec_cddaAdvance (live : s.live) : exec .cddaAdvance s = .next (cddaStep s) := whileLive_live s _ live

end Branches

/-! ## The tick-driven table (R313) -/

/-- Settles O57: each row of the table picks its branch of the step, and the frames stay inside the range. -/
theorem advanceFollowsTheTable : Obligations.AdvanceFollowsTheTable := by
  intro s live range
  refine ⟨cddaStep s, exec_cddaAdvance live, cddaStep_frame s, cddaStep_discFormat s, ?still, ?moves, ?loops, ?ends,
    ?movesBack, ?pauses⟩
  case still =>
    intro other
    rw [cddaStep_still other]
    exact ⟨rfl, rfl⟩
  case moves =>
    intro playing scan before
    rw [cddaStep_forward playing scan, advanceForward_moves before]
    exact ⟨rfl, fad_succ_toNat (Nat.lt_of_succ_lt before), rfl⟩
  case loops =>
    intro playing scan reached left
    rw [cddaStep_forward playing scan, advanceForward_loops (range playing).2 reached left]
    refine ⟨rfl, ?_, rfl⟩
    show (s.cdda.repeats - 1).toNat + 1 = s.cdda.repeats.toNat
    bv_omega
  case ends =>
    intro playing scan reached last
    rw [cddaStep_forward playing scan, advanceForward_ends (range playing).2 reached last]
    exact ⟨rfl, putUnit_unitStatus _ _⟩
  case movesBack =>
    intro playing scan after
    rw [cddaStep_reverse playing scan, advanceReverse_moves after]
    refine ⟨rfl, ?_, rfl⟩
    show (s.cdda.current - 1).toNat + 1 = s.cdda.current.toNat
    rw [fad_pred_toNat (Nat.lt_of_succ_lt after)]
    omega
  case pauses =>
    intro playing scan reached
    rw [cddaStep_reverse playing scan, advanceReverse_pauses (range playing).1 reached]
    exact ⟨rfl, putUnit_unitStatus _ _⟩

/-! ## A run of advances (R314) -/

/-- Operations appended to a run go on from the state it ends in. -/
theorem execAll_append {front : List Instr} {s t : State} (e : execAll front s = .next t) (rest : List Instr) :
    execAll (front ++ rest) s = execAll rest t := by
  induction front generalizing s with
  | nil =>
    cases e
    rfl
  | cons i front ih =>
    rw [execAll] at e
    split at e
    next u run => exact (execAll_cons run _).trans (ih e)
    next => cases e
    next => cases e

/-- Until the last advance the playback moves on frame by frame and nothing else changes. -/
theorem execAll_cddaAdvance_moves {s : State} (live : s.live) (playing : s.cdda.status = .playing)
    (scan : s.cdda.scan ≠ .reverse) (k : Nat) (before : s.cdda.current.toNat + k < s.cdda.last.toNat) :
    ∃ f : Fad, f.toNat = s.cdda.current.toNat + k ∧
      execAll (List.replicate k .cddaAdvance) s = .next (atFrame f s) := by
  induction k with
  | zero => exact ⟨s.cdda.current, rfl, rfl⟩
  | succ k ih =>
    obtain ⟨f, frame, run⟩ := ih (by omega)
    have next : f.toNat + 1 < s.cdda.last.toNat := by omega
    have step : exec .cddaAdvance (atFrame f s) = .next (atFrame (f + 1) s) := by
      rw [exec_cddaAdvance (s := atFrame f s) live, cddaStep_forward (s := atFrame f s) playing scan,
        advanceForward_moves (s := atFrame f s) next]
    refine ⟨f + 1, ?_, ?_⟩
    · rw [fad_succ_toNat (Nat.lt_of_succ_lt next), frame, Nat.add_assoc]
    · rw [List.replicate_succ', execAll_append run, execAll_cons step, execAll]

/-- The advance onto the last frame ends the playback. -/
theorem execAll_cddaAdvance_ends {s : State} (live : s.live) (playing : s.cdda.status = .playing)
    (scan : s.cdda.scan ≠ .reverse) (last : s.cdda.repeats.toNat = 0) (k : Nat)
    (reaches : s.cdda.current.toNat + (k + 1) = s.cdda.last.toNat) :
    execAll (List.replicate (k + 1) .cddaAdvance) s = .next (playEnded s) := by
  obtain ⟨f, frame, run⟩ := execAll_cddaAdvance_moves live playing scan k (by omega)
  have high : f.toNat ≤ s.cdda.last.toNat := by omega
  have reached : s.cdda.last.toNat ≤ f.toNat + 1 := by omega
  have step : exec .cddaAdvance (atFrame f s) = .next (playEnded s) := by
    rw [exec_cddaAdvance (s := atFrame f s) live, cddaStep_forward (s := atFrame f s) playing scan,
      advanceForward_ends (s := atFrame f s) high reached last]
  rw [List.replicate_succ', execAll_append run, execAll_cons step, execAll]

/-- Settles O58: by induction over the advances before the last, which the last one ends. -/
theorem playingRunsToItsEnd : Obligations.PlayingRunsToItsEnd := by
  intro s k live playing scan repeats _ inside within
  have notReverse : s.cdda.scan ≠ .reverse := by
    rw [scan]
    exact nofun
  rcases Nat.lt_or_eq_of_le within with before | whole
  · obtain ⟨f, frame, run⟩ := execAll_cddaAdvance_moves live playing notReverse k (by omega)
    exact ⟨_, run, frame, fun _ => playing, fun whole => absurd whole (Nat.ne_of_lt before)⟩
  · obtain ⟨m, rfl⟩ : ∃ m, k = m + 1 := Nat.exists_eq_succ_of_ne_zero (by omega)
    have reaches : s.cdda.current.toNat + (m + 1) = s.cdda.last.toNat := by omega
    have run := execAll_cddaAdvance_ends live playing notReverse (by rw [repeats]; rfl) m reaches
    have still : cddaStep (playEnded s) = playEnded s := cddaStep_still (s := playEnded s) nofun
    refine ⟨playEnded s, run, reaches.symm, fun before => absurd whole (Nat.ne_of_lt before), fun _ => ⟨rfl, ?_, ?_⟩⟩
    · exact putUnit_unitStatus _ _
    · rw [exec_cddaAdvance (s := playEnded s) live, still]

end Sys2Proof.Machine
end

section
/-! The reasons an operation can be stopped for (R350): procedure by procedure, from the buffers up to a whole operation, and
the statement that the four internal ones are never recorded, settled. -/

namespace Sys2Proof.Machine

open Sys2Proof

/-! ## Reasons an agent can raise -/

/-- The halt is a refusal, or a misuse that an agent's operation can raise (the last column of R350's table). -/
def Halt.Sanctioned (f : Halt) : Prop := ∀ m, f.why = .misuse m → m.byAgent = true

/-- Where the procedure stops, it stops for such a reason. -/
def StopsSanctioned {α : Type} (r : Except Halt α) : Prop := ∀ f, r = .error f → f.Sanctioned

/-- The misuse recorded, if any, is one that an agent can raise. -/
def RecordSanctioned (t : State) : Prop := ∀ m, t.misuse = some m → m.byAgent = true

/-- So is the one recorded in the next state, if there is one. -/
def NextSanctioned (r : Result) : Prop := ∀ t, r = .next t → RecordSanctioned t

section Sanctioned

variable {s t u : State}

theorem stopsSanctioned_ok {α : Type} (a : α) : StopsSanctioned (.ok a : Except Halt α) := nofun

theorem stopsSanctioned_misused {α : Type} {m : Misuse} (agent : m.byAgent = true) :
    StopsSanctioned (misused m s : Except Halt α) := by
  rintro _ ⟨⟩ _ ⟨⟩
  exact agent

theorem stopsSanctioned_refusedFor {α : Type} (m : RefuseReason) : StopsSanctioned (refusedFor m s : Except Halt α) := by
  rintro _ ⟨⟩
  exact nofun

/-- A stop that is passed on keeps its reason. -/
theorem StopsSanctioned.passedOn {α β : Type} {r : Except Halt α} {f : Halt} (h : StopsSanctioned r) (e : r = .error f) :
    StopsSanctioned (.error f : Except Halt β) := by
  rintro _ ⟨⟩
  exact h f e

/-! ## The shared parts of the handlers -/

theorem needReady_stopsSanctioned {k : Act} (hk : ∀ v, StopsSanctioned (k v)) : StopsSanctioned (needReady k u) := by
  rcases needReady_cases k u with ⟨-, e⟩ | ⟨-, e⟩
  · rw [e]
    exact hk _
  · rw [e]
    exact stopsSanctioned_ok _

theorem needToc_stopsSanctioned {k : Toc → Act} (hk : ∀ toc v, StopsSanctioned (k toc v)) :
    StopsSanctioned (needToc k u) := by
  rcases needToc_cases k u with ⟨toc, -, e⟩ | ⟨-, e⟩
  · rw [e]
    exact hk toc _
  · rw [e]
    exact stopsSanctioned_ok _

/-- A response within the PioBuffer's capacity is given, so `PioOverCapacity` is not raised (R82, R181). -/
theorem pioRespond_stopsSanctioned {bytes : List Byte} {next : GdState} (fits : bytes.length ≤ 65536) :
    StopsSanctioned (pioRespond bytes next u) := by
  rw [pioRespond_fits bytes next u fits]
  exact stopsSanctioned_ok _

/-- A packet's length field has at most sixteen bits, so it asks for no more than the PioBuffer holds (R128 to R134, R141). -/
theorem take_fits {w : Nat} (small : w ≤ 16) (bytes : List Byte) (len : BitVec w) :
    (bytes.take len.toNat).length ≤ 65536 :=
  calc (bytes.take len.toNat).length ≤ len.toNat := List.length_take_le _ _
    _ ≤ 2 ^ w := len.isLt.le
    _ ≤ 2 ^ 16 := Nat.pow_le_pow_right (by decide) small

/-! ## The read engine (R290 to R295) -/

/-- A drained DmaBuffer can be refilled, so `DmaFillNotEmpty` is not raised (R91). -/
theorem dmaFill_stopsSanctioned (empty : dmaIsEmpty s = true) : StopsSanctioned (dmaFill s) := by
  rcases dmaFill_cases s with ⟨left, -⟩ | ⟨-, -, e⟩ | ⟨-, size, bytes, -, -, -, e⟩ | ⟨-, size, -, -, e⟩
  · exact absurd (by simpa [dmaIsEmpty] using empty) left
  · rw [e]
    exact stopsSanctioned_refusedFor _
  · rw [e]
    exact stopsSanctioned_ok _
  · rw [e]
    exact stopsSanctioned_ok _

theorem offerChunk_stopsSanctioned (s : State) : StopsSanctioned (offerChunk s) := by
  rw [offerChunk_eq]
  exact stopsSanctioned_ok _

theorem enterReadsectorPio_stopsSanctioned (s : State) : StopsSanctioned (enterReadsectorPio s) := by
  unfold enterReadsectorPio
  dsimp only
  split
  · rename_i empty
    split
    · exact stopsSanctioned_ok _
    · split
      next f hf => exact (dmaFill_stopsSanctioned empty).passedOn hf
      next => exact stopsSanctioned_ok _
      next => exact offerChunk_stopsSanctioned _
  · exact offerChunk_stopsSanctioned _

theorem dmaService_stopsSanctioned (s : State) : StopsSanctioned (dmaService s) := by
  unfold dmaService
  split
  · rename_i empty
    split
    · exact stopsSanctioned_ok _
    · split
      next f hf => exact (dmaFill_stopsSanctioned empty).passedOn hf
      next => exact stopsSanctioned_ok _
      next => exact stopsSanctioned_ok _
  · exact stopsSanctioned_ok _

/-- A sector read is refused, or stopped for its limit, before the engine starts (R286). -/
theorem readStart_stopsSanctioned (p : Params) (count : Nat) (s : State) : StopsSanctioned (readStart p count s) := by
  unfold readStart
  split
  · exact stopsSanctioned_refusedFor _
  · refine needReady_stopsSanctioned fun v => ?_
    split
    · exact stopsSanctioned_misused rfl
    · dsimp only
      split
      · exact dmaService_stopsSanctioned _
      · exact enterReadsectorPio_stopsSanctioned _

/-! ## The packets (R220) -/

theorem enterProcessSetMode_stopsSanctioned (s : State) : StopsSanctioned (enterProcessSetMode s) := by
  rcases enterProcessSetMode_cases s with ⟨-, e⟩ | ⟨-, e⟩
  · rw [e]
    exact stopsSanctioned_ok _
  · rw [e]
    exact stopsSanctioned_ok _

theorem spiSetMode_stopsSanctioned (p : Params) (s : State) : StopsSanctioned (spiSetMode p s) := by
  rw [spiSetMode_eq]
  split
  · exact enterProcessSetMode_stopsSanctioned _
  · exact stopsSanctioned_ok _

theorem spiReqSes_stopsSanctioned (p : Params) (s : State) : StopsSanctioned (spiReqSes p s) := by
  refine needReady_stopsSanctioned fun _ => needToc_stopsSanctioned fun toc v => ?_
  split
  · exact stopsSanctioned_ok _
  · exact pioRespond_stopsSanctioned (take_fits (by decide) _ _)

theorem spiGetScd_stopsSanctioned (p : Params) (s : State) : StopsSanctioned (spiGetScd p s) := by
  unfold spiGetScd
  split
  · exact pioRespond_stopsSanctioned (take_fits (by decide) _ _)
  · exact stopsSanctioned_ok _

theorem playFrom_stopsSanctioned (p : Params) (s : State) : StopsSanctioned (playFrom p s) := by
  refine needToc_stopsSanctioned fun toc v => ?_
  split <;> exact stopsSanctioned_ok _

theorem resume_stopsSanctioned (s : State) : StopsSanctioned (resume s) := by
  rcases resume_cases s with ⟨-, -, -, e⟩ | ⟨-, -, e⟩ | ⟨-, e⟩
  all_goals
    rw [e]
    exact stopsSanctioned_ok _

theorem spiCdPlay_stopsSanctioned (p : Params) (s : State) : StopsSanctioned (spiCdPlay p s) := by
  refine needReady_stopsSanctioned fun v => ?_
  split
  · exact playFrom_stopsSanctioned p v
  · exact playFrom_stopsSanctioned p v
  · exact resume_stopsSanctioned v
  · exact stopsSanctioned_ok _

theorem seekTo_stopsSanctioned (p : Params) (s : State) : StopsSanctioned (seekTo p s) := by
  unfold seekTo
  split <;> exact stopsSanctioned_ok _

theorem pause_stopsSanctioned (s : State) : StopsSanctioned (pause s) := by
  unfold pause
  split <;> exact stopsSanctioned_ok _

theorem spiCdSeek_stopsSanctioned (p : Params) (s : State) : StopsSanctioned (spiCdSeek p s) := by
  refine needReady_stopsSanctioned fun v => ?_
  split
  · exact seekTo_stopsSanctioned p v
  · exact seekTo_stopsSanctioned p v
  · exact pause_stopsSanctioned v
  · exact stopsSanctioned_ok _

theorem scanFrom_stopsSanctioned (p : Params) (s : State) : StopsSanctioned (scanFrom p s) := by
  unfold scanFrom
  split <;> exact stopsSanctioned_ok _

theorem spiCdScan_stopsSanctioned (p : Params) (s : State) : StopsSanctioned (spiCdScan p s) := by
  refine needReady_stopsSanctioned fun v => ?_
  split
  · exact scanFrom_stopsSanctioned p v
  · exact scanFrom_stopsSanctioned p v
  · exact stopsSanctioned_ok _

/-- No packet's handler stops for an internal reason, from any state. -/
theorem spiHandler_stopsSanctioned (opcode : Byte) (p : Params) (s : State) : StopsSanctioned (spiHandler opcode p s) := by
  unfold spiHandler
  cases spiOp opcode with
  | testUnit => exact needReady_stopsSanctioned fun _ => stopsSanctioned_ok _
  | reqStat | reqMode => exact pioRespond_stopsSanctioned (window_fits _ _ _)
  | setMode => exact spiSetMode_stopsSanctioned p s
  | reqError => exact pioRespond_stopsSanctioned (take_fits (by decide) _ _)
  | getToc =>
    exact needReady_stopsSanctioned fun _ => needToc_stopsSanctioned fun _ _ =>
      pioRespond_stopsSanctioned (take_fits (by decide) _ _)
  | reqSes => exact spiReqSes_stopsSanctioned p s
  | cdOpen | other => exact stopsSanctioned_ok _
  | cdPlay => exact spiCdPlay_stopsSanctioned p s
  | cdSeek => exact spiCdSeek_stopsSanctioned p s
  | cdScan => exact spiCdScan_stopsSanctioned p s
  | cdRead | cdRead2 => exact readStart_stopsSanctioned p _ s
  | getScd => exact spiGetScd_stopsSanctioned p s

/-! ## The DATA port and the DMA port (R164 to R168, R297) -/

/-- Whatever its continuation, the end of a data phase does not stop for an internal reason (R86). -/
theorem endPhaseIfDrained_stopsSanctioned (s : State) : StopsSanctioned (endPhaseIfDrained s) := by
  rcases endPhaseIfDrained_cases s with ⟨-, e⟩ | ⟨-, e⟩
  · rw [e]
    cases s.pio.nextState with
    | waitcmd | waitpacket | pioSendData | pioGetData | pioEnd | procpacketdone => exact stopsSanctioned_ok _
    | procpacket => exact spiHandler_stopsSanctioned _ _ _
    | readsectorPio => exact enterReadsectorPio_stopsSanctioned _
    | readsectorDma => exact dmaService_stopsSanctioned _
    | processSetMode => exact enterProcessSetMode_stopsSanctioned _
  · rw [e]
    exact stopsSanctioned_ok _

/-- In a phase to the host a word is left, so `PioReadPastEnd` is not raised (R49 item 6). -/
theorem hostReadData_stopsSanctioned (inv : Inv s) (n : Nat) : StopsSanctioned (hostReadData n s) := by
  unfold hostReadData
  split
  · exact stopsSanctioned_misused rfl
  · rename_i phase
    split
    · exact stopsSanctioned_misused rfl
    · rcases pioRead_cases s with ⟨-, e⟩ | ⟨drained, -⟩
      · rw [e]
        exact endPhaseIfDrained_stopsSanctioned _
      · exact absurd (inv.phaseOpen (.inl (not_not.mp phase))) (Nat.not_lt.mpr drained)

theorem collectPacket_stopsSanctioned (n : Nat) (v : Half) (s : State) : StopsSanctioned (collectPacket n v s) := by
  unfold collectPacket
  dsimp only
  split
  · exact stopsSanctioned_misused rfl
  · split
    · exact spiHandler_stopsSanctioned _ _ _
    · exact stopsSanctioned_ok _

/-- In a phase from the host a word is left, so `PioWritePastEnd` is not raised (R49 item 6). -/
theorem hostWriteData_stopsSanctioned (inv : Inv s) (n : Nat) (v : Half) : StopsSanctioned (hostWriteData n v s) := by
  unfold hostWriteData
  split
  · exact stopsSanctioned_misused rfl
  · split
    · exact collectPacket_stopsSanctioned n v s
    · split
      · rename_i phase
        split
        · rcases pioWrite_cases v s with ⟨-, e⟩ | ⟨drained, -⟩
          · rw [e]
            exact endPhaseIfDrained_stopsSanctioned _
          · exact absurd (inv.phaseOpen (.inr phase)) (Nat.not_lt.mpr drained)
        · exact stopsSanctioned_misused rfl
      · exact stopsSanctioned_misused rfl

theorem dmaPullBytes_stopsSanctioned (len : Nat) (s : State) : StopsSanctioned (dmaPullBytes len s) := by
  unfold dmaPullBytes
  split
  · exact stopsSanctioned_misused rfl
  · rcases dmaRead_cases len s with ⟨-, e⟩ | ⟨-, e⟩
    · rw [e]
      exact dmaService_stopsSanctioned _
    · rw [e]
      exact (stopsSanctioned_misused (α := List Byte × State) rfl).passedOn rfl

/-! ## The commands (R169, R200) -/

/-- The identification block fits the PioBuffer (R7, R205); the other commands do not stop. -/
theorem ataHandler_stopsSanctioned (sized : s.cfg.sized) (code : Byte) : StopsSanctioned (ataHandler code s) := by
  unfold ataHandler
  cases ataOp code with
  | nop | softReset | execDiag | spiPacket | other => exact stopsSanctioned_ok _
  | identifyDevice | identify => exact pioRespond_stopsSanctioned (by rw [sized.1]; decide)
  | setFeatures =>
    show StopsSanctioned (ataSetFeatures s)
    unfold ataSetFeatures
    split <;> exact stopsSanctioned_ok _

theorem commandWrite_stopsSanctioned {k : Act} (code : Byte) (hk : StopsSanctioned (k (acceptCommand s))) :
    StopsSanctioned (commandWrite code k s) := by
  rcases commandWrite_cases code k s with ⟨-, -, e⟩ | ⟨-, e⟩
  · rw [e]
    exact stopsSanctioned_misused rfl
  · rw [e]
    exact hk

/-! ## What is recorded (R350) -/

theorem recordSanctioned_of_none (none : t.misuse = none) : RecordSanctioned t := by
  intro m e
  cases none.symm.trans e

/-- The first record is the reason the operation was stopped for. -/
theorem recordSanctioned_recordHalt {f : Halt} (none : s.misuse = none) (h : f.Sanctioned) :
    RecordSanctioned (recordHalt f s) := by
  rcases recordHalt_cases f s with ⟨r, why, e⟩ | ⟨r, -, e⟩
  · rw [e, none]
    rintro _ ⟨⟩
    exact h r why
  · rw [e]
    exact recordSanctioned_of_none none

theorem whileLive_nextSanctioned {k : Result} (h : NextSanctioned k) : NextSanctioned (whileLive s k) :=
  fun t e => h t (next_of_whileLive e)

theorem nextSanctioned_next (h : RecordSanctioned t) : NextSanctioned (.next t) := by
  rintro _ ⟨⟩
  exact h

/-- An operation that leaves the record as it was records nothing. -/
theorem nextSanctioned_kept (none : s.misuse = none) (kept : t.misuse = s.misuse) : NextSanctioned (.next t) :=
  nextSanctioned_next (recordSanctioned_of_none (kept.trans none))

theorem applied_nextSanctioned {r : Except Halt State} (none : s.misuse = none) (stops : StopsSanctioned r)
    (kept : ∀ t, r = .ok t → t.misuse = s.misuse) : NextSanctioned (applied s r) := by
  rcases applied_cases s r with ⟨t, ok, e⟩ | ⟨f, stopped, e⟩
  · rw [e]
    exact nextSanctioned_kept none (kept t ok)
  · rw [e]
    exact nextSanctioned_next (recordSanctioned_recordHalt none (stops f stopped))

theorem misused_nextSanctioned {m : Misuse} (none : s.misuse = none) (agent : m.byAgent = true) :
    NextSanctioned (applied s (misused m s)) :=
  nextSanctioned_next (recordSanctioned_recordHalt none (stopsSanctioned_misused (α := State) agent _ rfl))

theorem hostReadData_misuse {n : Nat} (e : hostReadData n s = .ok t) : t.misuse = s.misuse :=
  (ended_hostReadData (c := True) (p := True) (fun _ _ => ⟨trivial, trivial⟩) e).record.1

theorem hostWriteData_misuse {n : Nat} {v : Half} (e : hostWriteData n v s = .ok t) : t.misuse = s.misuse :=
  (ended_hostWriteData (c := True) (p := True) (fun _ _ => ⟨trivial, trivial⟩)
    (fun _ => ⟨fun _ => trivial, fun _ => trivial⟩) e).record.1

theorem spiHandler_misuse {code opcode : Byte} {p : Params} (e : spiHandler opcode p (dispatched code p s) = .ok t) :
    t.misuse = s.misuse := by
  have started : Quiet True True s (dispatched code p s) :=
    Quiet.startPacket (u := { s with packet := Packet.full code p }) { (Quiet.refl s : Quiet True True s s) with }
  exact (ended_answered (fun _ => trivial) (fun _ => trivial) started (spiHandler_leads opcode p .start e)).record.1

theorem writeWords_recordSanctioned (ws : List Half) (inv : Inv s) (none : s.misuse = none) :
    RecordSanctioned (writeWords ws s) := by
  induction ws generalizing s with
  | nil => exact recordSanctioned_of_none none
  | cons v rest ih =>
    unfold writeWords
    split
    next u hu => exact ih (inv_hostWriteData inv hu) ((hostWriteData_misuse hu).trans none)
    next f hf => exact recordSanctioned_recordHalt none (hostWriteData_stopsSanctioned inv 2 v f hf)

/-! ## The operations -/

theorem readRegister_nextSanctioned (none : s.misuse = none) (kept : u.misuse = s.misuse) (n : Nat) (v : Byte) :
    NextSanctioned (readRegister n v s u) := by
  refine whileLive_nextSanctioned ?_
  split
  · exact nextSanctioned_kept none kept
  · exact nextSanctioned_next (recordSanctioned_recordHalt none (stopsSanctioned_misused (α := State) rfl _ rfl))

theorem writeRegister_nextSanctioned (none : s.misuse = none) (kept : u.misuse = s.misuse) (n : Nat) :
    NextSanctioned (writeRegister n s u) := by
  refine whileLive_nextSanctioned ?_
  split
  · exact nextSanctioned_kept none kept
  · exact misused_nextSanctioned none rfl

theorem execRData_nextSanctioned (inv : Inv s) (none : s.misuse = none) (n : Nat) : NextSanctioned (execRData n s) := by
  refine whileLive_nextSanctioned ?_
  split
  next t ht => exact nextSanctioned_kept none (hostReadData_misuse ht)
  next f hf =>
    exact nextSanctioned_next (recordSanctioned_recordHalt none (hostReadData_stopsSanctioned inv n f hf))

theorem execDmaPull_nextSanctioned (none : s.misuse = none) (len : Nat) : NextSanctioned (execDmaPull len s) := by
  refine whileLive_nextSanctioned ?_
  split
  next t ht =>
    have ended : Ended True True s t := ended_dmaPullBytes ht
    exact nextSanctioned_kept none ended.record.1
  next f hf =>
    exact nextSanctioned_next (recordSanctioned_recordHalt none (dmaPullBytes_stopsSanctioned len s f hf))

theorem commandWrite_nextSanctioned (inv : Inv s) (none : s.misuse = none) (code : Byte) :
    NextSanctioned (applied s (commandWrite code (ataHandler code) s)) := by
  refine applied_nextSanctioned none
    (commandWrite_stopsSanctioned code (ataHandler_stopsSanctioned (s := acceptCommand s) inv.configSized code)) ?_
  intro t e
  rcases commandWrite_cases code (ataHandler code) s with ⟨-, -, e'⟩ | ⟨taken, e'⟩
  · cases e'.symm.trans e
  · exact (ended_commanded (c := True) (p := True) (fun _ => ⟨trivial, trivial⟩)
      (ataHandler_commanded taken (e'.symm.trans e))).record.1

theorem execWCommand_nextSanctioned (inv : Inv s) (none : s.misuse = none) (n : Nat) (v : Half) :
    NextSanctioned (execWCommand n v s) := by
  refine whileLive_nextSanctioned ?_
  split
  · exact commandWrite_nextSanctioned inv none _
  · exact misused_nextSanctioned none rfl

theorem runCommand_nextSanctioned (inv : Inv s) (none : s.misuse = none) (code : Byte) :
    NextSanctioned (runCommand code (ataHandler code) s) :=
  whileLive_nextSanctioned (commandWrite_nextSanctioned inv none code)

/-- A code in the catch-all row runs the failure procedure, which records nothing. -/
theorem execAtaUnknown_nextSanctioned (none : s.misuse = none) (code : Byte) : NextSanctioned (execAtaUnknown code s) := by
  refine whileLive_nextSanctioned (applied_nextSanctioned none
    (commandWrite_stopsSanctioned code (stopsSanctioned_ok _)) fun t e => ?_)
  rcases commandWrite_cases code ataUnknownCode s with ⟨-, -, e'⟩ | ⟨-, e'⟩
  · cases e'.symm.trans e
  · cases e'.symm.trans e
    rfl

theorem runPacket_nextSanctioned (inv : Inv s) (none : s.misuse = none) (opcode : Byte) {code : Byte} {p : Params} :
    NextSanctioned (runPacket code (spiHandler opcode) p s) := by
  refine whileLive_nextSanctioned ?_
  split
  · exact applied_nextSanctioned none (spiHandler_stopsSanctioned _ _ _) fun _ e => spiHandler_misuse e
  · exact nextSanctioned_next (writeWords_recordSanctioned _ inv none)

/-- No operation records an internal reason, by the operation's constructor. -/
theorem exec_nextSanctioned (inv : Inv s) (none : s.misuse = none) (i : Instr) : NextSanctioned (exec i s) := by
  cases i with
  | rData n => exact execRData_nextSanctioned inv none n
  | rError n | rIntreason n | rSectnum n | rBclow n | rBchigh n | rDrivesel n | rStatus n =>
    exact readRegister_nextSanctioned none (by rfl) n _
  | wData n v =>
    exact whileLive_nextSanctioned
      (applied_nextSanctioned none (hostWriteData_stopsSanctioned inv n v) fun _ e => hostWriteData_misuse e)
  | wFeatures n v | wSectcount n v | wSectnum n v | wBclow n v | wBchigh n v | wDrivesel n v =>
    exact writeRegister_nextSanctioned none (by rfl) n
  | wCommand n v => exact execWCommand_nextSanctioned inv none n v
  | nop => exact runCommand_nextSanctioned inv none 0x00
  | softReset => exact runCommand_nextSanctioned inv none 0x08
  | execDiag => exact runCommand_nextSanctioned inv none 0x90
  | spiPacket => exact runCommand_nextSanctioned inv none 0xA0
  | identifyDevice => exact runCommand_nextSanctioned inv none 0xA1
  | identify => exact runCommand_nextSanctioned inv none 0xEC
  | setFeatures => exact runCommand_nextSanctioned inv none 0xEF
  | ataUnknown code => exact execAtaUnknown_nextSanctioned none code
  | testUnit p => exact runPacket_nextSanctioned inv none 0x00
  | reqStat p => exact runPacket_nextSanctioned inv none 0x10
  | reqMode p => exact runPacket_nextSanctioned inv none 0x11
  | setMode p => exact runPacket_nextSanctioned inv none 0x12
  | reqError p => exact runPacket_nextSanctioned inv none 0x13
  | getToc p => exact runPacket_nextSanctioned inv none 0x14
  | reqSes p => exact runPacket_nextSanctioned inv none 0x15
  | cdOpen p => exact runPacket_nextSanctioned inv none 0x16
  | cdPlay p => exact runPacket_nextSanctioned inv none 0x20
  | cdSeek p => exact runPacket_nextSanctioned inv none 0x21
  | cdScan p => exact runPacket_nextSanctioned inv none 0x22
  | cdRead p => exact runPacket_nextSanctioned inv none 0x30
  | cdRead2 p => exact runPacket_nextSanctioned inv none 0x31
  | getScd p => exact runPacket_nextSanctioned inv none 0x40
  | spiUnrecognized code p => exact runPacket_nextSanctioned inv none 0xFF
  | dmaAvail => exact whileLive_nextSanctioned (nextSanctioned_kept none rfl)
  | dmaPull len => exact execDmaPull_nextSanctioned none len
  | cddaAdvance =>
    exact whileLive_nextSanctioned (nextSanctioned_kept none (quiet_cddaStep (c := True) (p := True) trivial).record.1)
  | trayClose => exact whileLive_nextSanctioned (nextSanctioned_kept none (quiet_closeTray (c := True) (p := True)).record.1)
  | hardReset => exact nextSanctioned_kept none ((live_hardResetState s).1.trans none.symm)

end Sanctioned

/-- Settles O6: an operation is applied with nothing recorded before it, so what it records is its own reason, and each
procedure's reasons are sanctioned. -/
theorem onlyAgentsMisuse : Obligations.OnlyAgentsMisuse := by
  intro s t r inv none e recorded
  cases hin : s.inbox with
  | nil =>
    cases (step_of_inbox_nil s hin).symm.trans e
    exact recordSanctioned_of_none none r recorded
  | cons x rest =>
    cases hd : decode x.record with
    | ok i =>
      have taken : Inv (takeInput x rest s) := { inv with }
      exact exec_nextSanctioned taken none i t ((step_of_decode_ok s x rest i hin hd).symm.trans e) r recorded
    | error why => cases (step_of_decode_error s x rest why hin hd).symm.trans e

end Sys2Proof.Machine
end
